-- ==== Sys2Proof/Word.lean ====
section
/-! DEFINITION. The word types of the block: the frame, its fields, the symbol word, the command word and the pulse buffer. -/

namespace Sys2Proof

/-- A 16-bit frame (30 R70). -/
abbrev Frame := BitVec 16

/-- The 11-bit payload of a packet (30 R70). -/
abbrev Payload := BitVec 11

/-- One pulse symbol as the word the pulse buffer holds (30 R75): a number of `2 * P_DUR_W + 2` bits,
32 at the default. Its width is a parameter, so the number carries none of its own (log 2). -/
abbrev SymbolWord := Nat

/-- A command on the host port, op in bits 18:16 and arg in bits 15:0 (30 R78). -/
abbrev CmdWord := BitVec 19

/-- The argument of a command (10 R27, R34). -/
abbrev Arg := BitVec 16

/-- A pin number of `P_PIN_W` bits, 8 at the default (10 R23; log 2). -/
abbrev Pin := Nat

/-- A transmitter channel number of `P_CH_W` bits, 3 at the default (10 R23; log 2). -/
abbrev Channel := Nat

/-- The pulse buffer: 17 symbol words, indexed by entry number (10 R31, 20 R50). -/
abbrev PulseBuffer := Vector SymbolWord 17

/-- A scheduler tick count: an unsigned number read modulo `2 ^ P_TICK_W` (10 R38, 41 R132).
Its width is the parameter `P_TICK_W`, so the number carries no width of its own (log 2). -/
abbrev Tick := Nat

end Sys2Proof
end

