-- ==== Sys2Proof/Config.lean ====
section
/-! DEFINITION. What an implementation fixes (the parameters of 00 R5), the moves of the environment agents, and the free values the spec leaves open. -/

namespace Sys2Proof

/-- The implementation parameters of 00 R5, each under the name given there.
DESIGN CHOICE: State carries them, since a step takes no argument for them (log 1). -/
structure Params where
  /-- `P_TICKS_PER_BIT`, protocol ticks. -/
  ticksPerBit : Nat
  /-- `P_T1H`, protocol ticks. -/
  t1h : Nat
  /-- `P_T1L`, protocol ticks. -/
  t1l : Nat
  /-- `P_T0H`, protocol ticks. -/
  t0h : Nat
  /-- `P_T0L`, protocol ticks. -/
  t0l : Nat
  /-- `P_PAUSE_BITS`, bit periods. -/
  pauseBits : Nat
  /-- `P_PAUSE_TICKS`, protocol ticks. -/
  pauseTicks : Nat
  /-- `P_RESET_FRAMES`, frames. -/
  resetFrames : Nat
  /-- `P_ARM_TICKS`, scheduler ticks. -/
  armTicks : Nat
  /-- `P_REV_HOLD_TICKS`, scheduler ticks. -/
  revHoldTicks : Nat
  /-- `P_DIR_REPEATS`, frames. -/
  dirRepeats : Nat
  /-- `P_BEEP_SLEEP_TICKS`, scheduler ticks. -/
  beepSleepTicks : Nat
  /-- `P_YIELD_TICKS`, scheduler ticks. -/
  yieldTicks : Nat
  /-- `P_THR_MIN`, a payload. -/
  thrMin : Nat
  /-- `P_THR_MAX`, a payload. -/
  thrMax : Nat
  /-- `P_CMD_BEEP`, a payload. -/
  cmdBeep : Nat
  /-- `P_CMD_DIR_NORMAL`, a payload. -/
  cmdDirNormal : Nat
  /-- `P_CMD_DIR_REVERSED`, a payload. -/
  cmdDirReversed : Nat
  /-- `P_CMD_TELEMETRY`, a bit. -/
  cmdTelemetry : Bool
  /-- `P_TX_TIMEOUT`, scheduler ticks; `none` is `INF`. -/
  txTimeout : Option Nat
  /-- `P_CLKDIV`, the transmitter's clock divider; no rule depends on it. -/
  clkDiv : Nat
  /-- `P_TICK_W`, bits. -/
  tickW : Nat
  /-- `P_DUR_W`, bits. -/
  durW : Nat
  /-- `P_PIN_W`, bits. -/
  pinW : Nat
  /-- `P_CH_W`, bits. -/
  chW : Nat
  deriving DecidableEq, Repr, Inhabited
/-- The transmitter's configuration a successful configure request leaves it with (10 R37, 60 R213). -/
structure TxConfig where
  pin : Pin
  channel : Channel
  idleLevel : Bool
  outEnabled : Bool
  carrier : Bool
  loop : Bool
  clkDiv : Nat
  deriving DecidableEq, Repr, Inhabited

/-- What the host does with its command port before the next step (10 R34).
A host that keeps its duty never uses `present` or `drop` while a command waits (93 U28; log 13). -/
inductive HostMove where
  /-- A command not yet accepted stays on the port; after acceptance the port is empty. -/
  | hold
  /-- The port carries this word in the next step. -/
  | present (word : CmdWord)
  /-- `cmd_valid` is 0 in the next step. -/
  | drop
  deriving DecidableEq, Repr, Inhabited

/-- One choice of every environment agent for the next step (00 R10).
Whatever the fields hold, the port values made from them keep the contracts of 60 R211 to R213. -/
structure EnvMove where
  /-- The reset input of the next step (10 R39). -/
  rst : Bool
  /-- The host's move. -/
  host : HostMove
  /-- The timebase's advance, read modulo `2 ^ (P_TICK_W - 1)` (60 R211 item 2). -/
  tickAdvance : Nat
  /-- Protocol ticks the transmitter emits in this step of a train in flight (60 R212 items 2 and 3). -/
  emitTicks : Nat
  /-- `tx_start_err` of the next step (60 R212 item 1; log 9). -/
  startErr : Bool
  /-- Whether the transmitter answers a pending configure request in the next step (60 R213). -/
  cfgAnswer : Bool
  /-- `cfg_err` of the next step (60 R213). -/
  cfgErr : Bool
  deriving DecidableEq, Repr, Inhabited

/-- FREE VALUE: the `n`-th move the environment makes once no decided move is left (93 U17 to U21; log 6). -/
opaque Config.freeMove : Nat → EnvMove

/-- FREE VALUE: the contents of the pulse buffer at power-on, each entry read modulo its width
(93 U13; log 5). -/
opaque Config.powerOnPbuf : PulseBuffer

/-- FREE VALUE: the scheduler tick count at power-on, read modulo `2 ^ P_TICK_W` (60 R211; log 6). -/
opaque Config.powerOnTicks : Nat

/-- FREE VALUE: what a register of `width` bits holds once an operand that does not fit in it is
written, read modulo `2 ^ width` (10 R23; log 26). -/
opaque Config.oversized (width value : Nat) : Nat

/-- FREE VALUE: the OPEN parameter `P_CLKDIV` (92 D32; log 3). -/
opaque Config.openClkDiv : Nat

/-- FREE VALUE: the OPEN parameter `ESC_SIGNAL_LOSS_TIMEOUT`, used by no rule of the block (92 D30, 70 R234; log 4). -/
opaque Config.escSignalLossTimeout : Nat

/-- FREE VALUE: the OPEN parameter `ESC_DIR_SETTLE`, used by no rule of the block (92 D30, 70 R237; log 4). -/
opaque Config.escDirSettle : Nat

/-- The defaults of 00 R5, the normative values of the spec. -/
def Params.default : Params where
  ticksPerBit := 19
  t1h := 14
  t1l := 5
  t0h := 7
  t0l := 12
  pauseBits := 200
  pauseTicks := 3800
  resetFrames := 50
  armTicks := 5000
  revHoldTicks := 200
  dirRepeats := 10
  beepSleepTicks := 260
  yieldTicks := 1
  thrMin := 48
  thrMax := 2047
  cmdBeep := 1
  cmdDirNormal := 20
  cmdDirReversed := 21
  cmdTelemetry := false
  txTimeout := none
  clkDiv := Config.openClkDiv
  tickW := 32
  durW := 15
  pinW := 8
  chW := 3

end Sys2Proof
end

