-- ==== Sys2Proof/Syntax.lean ====
section
/-! DEFINITION. The commands of the block (one constructor per row of the opcode table), the command codes of the DShot protocol, and the assembler lines of 30 R83. -/

namespace Sys2Proof

/-- A command on the host port, one constructor per operation code (30 R79, opcode_table.json).
The argument bits an operation does not use are ignored (30 R82) but stand in register `arg`
(10 R27), so each constructor carries them (log 18). -/
inductive Instr where
  /-- Operation 0, reserved (41 R145). -/
  | reservedOp0 (ignored : BitVec 16)
  /-- `INSTALL pin=<p>, ch=<c>` (41 R139). -/
  | install (pin : BitVec 8) (channel : BitVec 3) (ignored : BitVec 5)
  /-- `INIT wait=<w>` (41 R140). -/
  | init (wait : Bool) (ignored : BitVec 15)
  /-- `SEND_THROTTLE <v>` (41 R141). -/
  | sendThrottle (value : BitVec 16)
  /-- `SET_REVERSED <r>` (41 R142). -/
  | setReversed (reversed : Bool) (ignored : BitVec 15)
  /-- `BEEP` (41 R143). -/
  | beep (ignored : BitVec 16)
  /-- `SEND_PACKET <p>, telem=<t>, block=<b>` (41 R144). -/
  | sendPacket (payload : Payload) (telemetry : Bool) (block : Bool) (ignored : BitVec 3)
  /-- Operation 7, reserved (41 R145). -/
  | reservedOp7 (ignored : BitVec 16)
  deriving DecidableEq, Repr, Inhabited

/-- The command codes the source names (30 R72). -/
inductive CommandCode where
  | motorStop | beep1 | beep2 | beep3 | beep4 | beep5 | escInfo
  | spinDirection1 | spinDirection2 | threeDModeOff | threeDModeOn
  | settingsRequest | saveSettings
  | spinDirectionNormal | spinDirectionReversed
  | led0On | led1On | led2On | led3On | led0Off | led1Off | led2Off | led3Off
  deriving DecidableEq, Repr, Inhabited

/-- What a payload means by its value (30 R71, R73). -/
inductive PayloadKind where
  /-- A named command code. -/
  | command (code : CommandCode)
  /-- Codes 13 to 19, "reserved/unused". -/
  | reservedUnused
  /-- Codes 30 to 47, in the command range and unnamed. -/
  | unnamed
  /-- A throttle magnitude, 48 to 2047. -/
  | throttle
  deriving DecidableEq, Repr, Inhabited

/-- An assembler line (30 R83), its operands the numbers as written. -/
inductive Asm where
  | install (pin : Nat) (ch : Nat)
  | init (wait : Nat)
  | sendThrottle (v : Nat)
  | setReversed (r : Nat)
  | beep
  | sendPacket (p : Nat) (telem : Nat) (block : Nat)
  /-- The pseudo-command `SEND_CMD <NAME>[, telem=<t>][, block=<b>]`. -/
  | sendCmd (name : CommandCode) (telem : Option Nat) (block : Option Nat)
  deriving DecidableEq, Repr, Inhabited

end Sys2Proof
end

