-- ==== Sys2Proof/WellFormed.lean ====
section
/-! DEFINITION. What makes a configuration legal (00 R6) and an assembler line well-formed (30 R80, R83). A command itself carries its field widths in its types, so every term of Instr is well-formed. -/

namespace Sys2Proof

namespace Params

/-- 00 R6: every symbol's two durations sum to one bit period. -/
def bitPeriodsAgree (p : Params) : Bool :=
  p.t1h + p.t1l == p.ticksPerBit && p.t0h + p.t0l == p.ticksPerBit

/-- 00 R6: no symbol of the look-up table has a zero duration. -/
def symbolTimesPositive (p : Params) : Bool :=
  decide (0 < p.t1h) && decide (0 < p.t0h) && decide (0 < p.t1l) && decide (0 < p.t0l)

/-- 00 R6: the pause lasts `P_PAUSE_BITS` bit periods, and is not empty. -/
def pauseConsistent (p : Params) : Bool :=
  p.pauseTicks == p.pauseBits * p.ticksPerBit && decide (0 < p.pauseTicks)

/-- 00 R6: every duration fits its field. -/
def durationsFit (p : Params) : Bool :=
  decide (p.pauseTicks < 2 ^ p.durW) && decide (p.t1h < 2 ^ p.durW) && decide (p.t1l < 2 ^ p.durW)
    && decide (p.t0h < 2 ^ p.durW) && decide (p.t0l < 2 ^ p.durW)

/-- 00 R6: the throttle bounds are ordered and are payloads. -/
def throttleBoundsOrdered (p : Params) : Bool :=
  decide (p.thrMin ≤ p.thrMax) && decide (p.thrMax ≤ 2047)

/-- 00 R6: the command codes are payloads. -/
def commandCodesFit (p : Params) : Bool :=
  decide (p.cmdBeep ≤ 2047) && decide (p.cmdDirNormal ≤ 2047) && decide (p.cmdDirReversed ≤ 2047)

/-- 00 R6: the repeat counts and the yield are at least 1 (log 23). -/
def countsPositive (p : Params) : Bool :=
  decide (1 ≤ p.resetFrames) && decide (1 ≤ p.dirRepeats) && decide (1 ≤ p.yieldTicks)

/-- 00 R6: every window and every finite timeout is below half the tick range. (With `P_TICK_W = 0`
half the range is one half, and below it lies 0 alone, as below the `2 ^ (0 - 1) = 1` written here.) -/
def windowsFit (p : Params) : Bool :=
  decide (p.armTicks < 2 ^ (p.tickW - 1)) && decide (p.revHoldTicks < 2 ^ (p.tickW - 1))
    && decide (p.beepSleepTicks < 2 ^ (p.tickW - 1))
    && (match p.txTimeout with
        | none => true
        | some t => decide (t < 2 ^ (p.tickW - 1)))

/-- A legal parameter set: every constraint of 00 R6, and no other. -/
def legal (p : Params) : Bool :=
  p.bitPeriodsAgree && p.symbolTimesPositive && p.pauseConsistent && p.durationsFit
    && p.throttleBoundsOrdered && p.commandCodesFit && p.countsPositive && p.windowsFit

/-- 00 R6, 70 R236: enough direction repeats for the ESC to latch the direction; a smaller value is
legal for the block and breaks the ESC's contract. -/
def meetsEscContract (p : Params) : Bool :=
  decide (6 ≤ p.dirRepeats)

end Params

/-- A one-bit operand of an assembler line is written 0 or 1. -/
def isBit (n : Nat) : Bool :=
  decide (n < 2)

/-- The operands of an assembler line fit the fields of 30 R80. DESIGN CHOICE: 30 R83 does not say what
an operand wider than its field stands for (an error, or its low bits); here such a line is ill-formed
and assembles to nothing (log 25). -/
def Asm.wellFormed : Asm → Bool
  | .install pin ch => decide (pin < 2 ^ 8) && decide (ch < 2 ^ 3)
  | .init wait => isBit wait
  | .sendThrottle v => decide (v < 2 ^ 16)
  | .setReversed r => isBit r
  | .beep => true
  | .sendPacket p telem block => decide (p < 2 ^ 11) && isBit telem && isBit block
  | .sendCmd _ telem block => telem.all isBit && block.all isBit

end Sys2Proof
end

