-- ==== Sys2Proof/Decode.lean ====
section
/-! DEFINITION. The decoder of the command word (30 R78 to R82), the encoder written from the same layout, the assembler of 30 R83, and the classification of payloads (30 R71 to R73). -/

namespace Sys2Proof

/-- `op = W[18:16]` (30 R78). -/
def opOf (w : CmdWord) : BitVec 3 :=
  w.extractLsb' 16 3

/-- `arg = W[15:0]` (30 R78). -/
def argOf (w : CmdWord) : Arg :=
  w.extractLsb' 0 16

/-- `pin = arg[7:0]` of `INSTALL` (30 R80). -/
def argPin (a : Arg) : BitVec 8 :=
  a.extractLsb' 0 8

/-- `channel = arg[10:8]` of `INSTALL` (30 R80). -/
def argChannel (a : Arg) : BitVec 3 :=
  a.extractLsb' 8 3

/-- `arg[0]`: `wait` of `INIT`, `reversed` of `SET_REVERSED` (30 R80). -/
def argFlag (a : Arg) : Bool :=
  a.getLsbD 0

/-- `payload = arg[10:0]` of `SEND_PACKET`; the payload `SEND_THROTTLE` sends (30 R80, 41 R141). -/
def argPayload (a : Arg) : Payload :=
  a.extractLsb' 0 11

/-- `telemetry = arg[11]` of `SEND_PACKET` (30 R80). -/
def argTelemetry (a : Arg) : Bool :=
  a.getLsbD 11

/-- `block = arg[12]` of `SEND_PACKET` (30 R80). -/
def argBlock (a : Arg) : Bool :=
  a.getLsbD 12

/-- The command of operation code `op` with argument `a` (30 R79, R80).
Total: every 19-bit word is a command, operations 0 and 7 the reserved ones (30 R81). -/
def decodeFields (op : BitVec 3) (a : Arg) : Instr :=
  if op = 0 then .reservedOp0 a
  else if op = 1 then .install (argPin a) (argChannel a) (a.extractLsb' 11 5)
  else if op = 2 then .init (argFlag a) (a.extractLsb' 1 15)
  else if op = 3 then .sendThrottle a
  else if op = 4 then .setReversed (argFlag a) (a.extractLsb' 1 15)
  else if op = 5 then .beep a
  else if op = 6 then
    .sendPacket (argPayload a) (argTelemetry a) (argBlock a) (a.extractLsb' 13 3)
  else .reservedOp7 a

/-- The decoder: the command a word on the host port stands for (30 R78). -/
def decode (w : CmdWord) : Instr :=
  decodeFields (opOf w) (argOf w)

/-- Why a number is no command word. -/
inductive DecodeReject where
  /-- The number has a bit above bit 18: the command port is 19 bits wide (30 R78). -/
  | widerThanCommandWord
  deriving DecidableEq, Repr

/-- The decoder on any number, its bits numbered as in a command word. -/
def decodeNat (n : Nat) : Except DecodeReject Instr :=
  if n < 2 ^ 19 then .ok (decode (BitVec.ofNat 19 n)) else .error .widerThanCommandWord

/-- The instruction the decoder reads from a word numbered as the opcode table numbers it
(19 bits, in whole bytes 24: bits 23 to 19 do not exist on the port; log 19). -/
def decodeTableWord (nbits w : Nat) : Option Instr :=
  match decodeNat (w % 2 ^ nbits) with
  | .ok i => some i
  | .error _ => none

/-- The operation code of a command (30 R79). -/
def Instr.op : Instr → BitVec 3
  | .reservedOp0 _ => 0
  | .install _ _ _ => 1
  | .init _ _ => 2
  | .sendThrottle _ => 3
  | .setReversed _ _ => 4
  | .beep _ => 5
  | .sendPacket _ _ _ _ => 6
  | .reservedOp7 _ => 7

/-- The argument word of a command (30 R80), its ignored bits as given. -/
def Instr.arg : Instr → Arg
  | .reservedOp0 ignored => ignored
  | .install pin channel ignored => ignored ++ channel ++ pin
  | .init wait ignored => ignored ++ BitVec.ofBool wait
  | .sendThrottle value => value
  | .setReversed reversed ignored => ignored ++ BitVec.ofBool reversed
  | .beep ignored => ignored
  | .sendPacket payload telemetry block ignored =>
      ignored ++ BitVec.ofBool block ++ BitVec.ofBool telemetry ++ payload
  | .reservedOp7 ignored => ignored

/-- The encoder: `W = op, arg` (30 R78). -/
def encode (i : Instr) : CmdWord :=
  i.op ++ i.arg

/-- The code of a named command (30 R72). -/
def CommandCode.code : CommandCode → Nat
  | .motorStop => 0
  | .beep1 => 1
  | .beep2 => 2
  | .beep3 => 3
  | .beep4 => 4
  | .beep5 => 5
  | .escInfo => 6
  | .spinDirection1 => 7
  | .spinDirection2 => 8
  | .threeDModeOff => 9
  | .threeDModeOn => 10
  | .settingsRequest => 11
  | .saveSettings => 12
  | .spinDirectionNormal => 20
  | .spinDirectionReversed => 21
  | .led0On => 22
  | .led1On => 23
  | .led2On => 24
  | .led3On => 25
  | .led0Off => 26
  | .led1Off => 27
  | .led2Off => 28
  | .led3Off => 29

/-- The command an assembler line stands for, `none` if it is ill-formed (30 R83; DESIGN CHOICE, log 25).
`SEND_CMD` is the `SEND_PACKET` of the name's code, with defaults `telem = P_CMD_TELEMETRY` and `block = 1`. -/
def assemble (p : Params) (a : Asm) : Option Instr :=
  if a.wellFormed then
    some (match a with
      | .install pin ch => .install (BitVec.ofNat 8 pin) (BitVec.ofNat 3 ch) 0
      | .init wait => .init (wait == 1) 0
      | .sendThrottle v => .sendThrottle (BitVec.ofNat 16 v)
      | .setReversed r => .setReversed (r == 1) 0
      | .beep => .beep 0
      | .sendPacket q telem block => .sendPacket (BitVec.ofNat 11 q) (telem == 1) (block == 1) 0
      | .sendCmd name telem block =>
          .sendPacket (BitVec.ofNat 11 name.code)
            (match telem with
              | none => p.cmdTelemetry
              | some t => t == 1)
            (match block with
              | none => true
              | some b => b == 1) 0)
  else none

/-- The named command of a code (30 R72), `none` where the source names none. -/
def CommandCode.ofCode? (n : Nat) : Option CommandCode :=
  [motorStop, beep1, beep2, beep3, beep4, beep5, escInfo, spinDirection1, spinDirection2,
    threeDModeOff, threeDModeOn, settingsRequest, saveSettings, spinDirectionNormal,
    spinDirectionReversed, led0On, led1On, led2On, led3On, led0Off, led1Off, led2Off,
    led3Off].find? (fun c => c.code == n)

/-- What a payload means by its value (30 R71, R73). No rule of the block reads it. -/
def payloadKind (q : Payload) : PayloadKind :=
  match CommandCode.ofCode? q.toNat with
  | some c => .command c
  | none =>
    if q.toNat < 20 then .reservedUnused
    else if q.toNat < 48 then .unnamed
    else .throttle

/-- The width of a symbol word: two durations of `P_DUR_W` bits and two levels (30 R75), 32 bits at the
default. DEDUCED for another `P_DUR_W`: the fields stand in the same order, each in its width (log 2). -/
def Params.entryWidth (p : Params) : Nat :=
  2 * p.durW + 2

end Sys2Proof
end

