-- ==== Sys2Proof/Machine/State.lean ====
section
/-! DEFINITION. The state of the block (10 R20 to R32), the environment agents beside it (00 R10), the reasons a step can stop, and the state after reset (10 R42). -/

namespace Sys2Proof.Machine

/-- The controller-level state (10 R21). -/
inductive Lifecycle where
  | uninstalled | installed | armed | failed
  deriving DecidableEq, Repr, Inhabited

/-- The control point of the sequencer (10 R24). -/
inductive Phase where
  | idle | cfgWait | rstIssue | rstDrain | armIssue | holdIssue | holdYield | revFlush
  | dirIssue | dirDrain | beepIssue | beepDrain | beepSleep | thrIssue | pktIssue | pktDrain
  deriving DecidableEq, Repr, Inhabited

/-- The command that owns the hold window (10 R25): 0 is `ARM`, 1 is `REV`. -/
inductive Ctx where
  | arm | rev
  deriving DecidableEq, Repr, Inhabited

/-- A status on the response port (60 R200). -/
inductive Status where
  | ok | configErr | invalidArg | txErr
  deriving DecidableEq, Repr, Inhabited

/-- The other agents' state and the port values they drive in the current step (00 R10, 10 R34 to
R39, 20 R57). No register of the block: State carries it since a step takes no input (log 6). -/
structure Env where
  /-- The reset input `rst` (10 R39). -/
  rst : Bool
  /-- `cmd_valid` with `cmd_op` and `cmd_arg`: the word on the command port, if any (10 R34). -/
  cmd : Option CmdWord
  /-- `tx_busy` (10 R36). -/
  txBusy : Bool
  /-- `tx_start_err`, read only in a step that issues (10 R36). -/
  startErr : Bool
  /-- `cfg_ack` (10 R37). -/
  cfgAck : Bool
  /-- `cfg_err`, read only with `cfg_ack` (10 R37). -/
  cfgErr : Bool
  /-- `now_ticks` (10 R38). -/
  now : Tick
  /-- The transmitter's train in flight: the protocol ticks already emitted of it (10 R41, 60 R212). -/
  flight : Option Nat
  /-- What the last successful configure request left the transmitter with (60 R213). -/
  txConfig : Option TxConfig
  /-- The moves the environment has already decided, the next one first (log 6). -/
  moves : List EnvMove
  /-- How many moves the free oracle has given (log 6). -/
  freeIx : Nat
  deriving DecidableEq, Repr

/-- Why the machine stops. Both need a transmitter that broke its contract (60 R212). -/
inductive Fault where
  /-- A pulse-buffer write while a train is in flight (20 R59, 93 U15). Raised by `issue` when
  `tx_busy` is 0 although the transmitter has not finished. SAFE: the model stops. -/
  | pulseBufferOverwrite
  /-- A transmitter read of an entry above 16 (20 R50, 93 U14). Raised by the transmitter's part of
  a step when the buffer it emits has no terminating zero duration. SAFE: the model stops. -/
  | pulseBufferReadOutOfRange
  deriving DecidableEq, Repr

/-- Why the model gives no meaning. -/
inductive Refusal where
  /-- A command that has no meaning yet; raised by no arm of `exec`. SAFE: the model stops. -/
  | notModelled (mnemonic : String)
  /-- The configuration is no legal parameter set (00 R6, 93 U24 "refuse"). Raised by `cycle`. SAFE:
  the model stops. -/
  | illegalConfiguration
  deriving DecidableEq, Repr

end Sys2Proof.Machine

namespace Sys2Proof.Machine

/-- The state of the machine. The fields down to `rspStatus` are the block's state, exactly the
list of 10 R20; `params` is the configuration (00 R5) and `env` the other agents (00 R10). -/
structure State where
  /-- Controller-level state (10 R21). -/
  lifecycle : Lifecycle
  /-- The direction last commanded successfully, true is reversed (10 R22). -/
  dirRev : Bool
  /-- The pin of the last accepted `INSTALL`, of `P_PIN_W` bits (10 R23). -/
  cfgPin : Pin
  /-- The channel of the last accepted `INSTALL`, of `P_CH_W` bits (10 R23). -/
  cfgChannel : Channel
  /-- The control point (10 R24). -/
  phase : Phase
  /-- The owner of the hold window (10 R25). -/
  ctx : Ctx
  /-- The repeat counter, of `cntWidth params` bits (10 R26). -/
  cnt : Nat
  /-- `cmd_arg` of the command accepted last (10 R27). -/
  arg : Arg
  /-- The tick count at the start of the hold window (10 R28). -/
  t0 : Tick
  /-- The tick count at the start of the yield or sleep (10 R29). -/
  ty : Tick
  /-- The tick count at the start of the wait on the transmitter (10 R30). -/
  tw : Tick
  /-- The pulse buffer (10 R31). -/
  pbuf : PulseBuffer
  /-- High for the one step after a completion (10 R32). -/
  rspValid : Bool
  /-- The status of the last completion (10 R32). -/
  rspStatus : Status
  /-- The configuration; no step changes it (00 R5; log 1). -/
  params : Params
  /-- The environment agents (00 R10; log 6). -/
  env : Env
  deriving DecidableEq, Repr

/-- The environment in the first step after reset: nothing presented, the transmitter idle and
unconfigured, the tick count free (log 6, log 20). -/
def Env.reset : Env where
  rst := false
  cmd := none
  txBusy := false
  startErr := false
  cfgAck := false
  cfgErr := false
  now := Config.powerOnTicks % 2 ^ Params.default.tickW
  flight := none
  txConfig := none
  moves := []
  freeIx := 0

/-- The machine right after reset (10 R42, 70 R230), with the default parameters. -/
def State.reset : State where
  lifecycle := .uninstalled
  dirRev := false
  cfgPin := 0
  cfgChannel := 0
  phase := .idle
  ctx := .arm
  cnt := 0
  arg := 0
  t0 := 0
  ty := 0
  tw := 0
  pbuf := Config.powerOnPbuf.map (· % 2 ^ Params.default.entryWidth)
  rspValid := false
  rspStatus := .ok
  params := Params.default
  env := Env.reset

end Sys2Proof.Machine
end

