-- ==== Sys2Proof/Machine/Encoder.lean ====
section
/-! DEFINITION. The packet encoder (40 R100 to R104), the reference decoder for tests (40 R107), and the wire level and length of a train as the spec states them (40 R105, R106). -/

namespace Sys2Proof.Machine

/-- `computeChecksum(v)`: the exclusive-or of the three nibbles (40 R100). -/
def computeChecksum (v : BitVec 12) : BitVec 4 :=
  v.extractLsb' 0 4 ^^^ v.extractLsb' 4 4 ^^^ v.extractLsb' 8 4

/-- The 12-bit value that the checksum folds: payload, then the telemetry bit (40 R101). -/
def packetBits (payload : Payload) (telemetry : Bool) : BitVec 12 :=
  payload ++ BitVec.ofBool telemetry

/-- `encodeFrame(payload, telemetry)` (40 R101). -/
def encodeFrame (payload : Payload) (telemetry : Bool) : Frame :=
  packetBits payload telemetry ++ computeChecksum (packetBits payload telemetry)

/-- The payload field of a frame (30 R70). -/
def framePayload (f : Frame) : Payload :=
  f.extractLsb' 5 11

/-- The telemetry bit of a frame (30 R70). -/
def frameTelemetry (f : Frame) : Bool :=
  f.getLsbD 4

/-- The checksum field of a frame (30 R70). -/
def frameChecksum (f : Frame) : BitVec 4 :=
  f.extractLsb' 0 4

/-- A frame is valid when its checksum is that of its other 12 bits (30 R70). -/
def validFrame (f : Frame) : Bool :=
  frameChecksum f == computeChecksum (f.extractLsb' 4 12)

/-- `decodeFrame(frame)`, the reference decoder for tests; no hardware (40 R107). -/
def decodeFrame (f : Frame) : Payload × Bool × Bool :=
  (framePayload f, frameTelemetry f, validFrame f)

/-- The symbol word of two sub-intervals, `lvl1, dur1, lvl0, dur0` from the high bits, the durations of
`P_DUR_W` bits each (30 R75; log 2). -/
def symbolWord (p : Params) (dur0 : Nat) (lvl0 : Bool) (dur1 : Nat) (lvl1 : Bool) : SymbolWord :=
  dur0 % 2 ^ p.durW + 2 ^ p.durW * (lvl0.toNat + 2 * (dur1 % 2 ^ p.durW + 2 ^ p.durW * lvl1.toNat))

/-- `dur0` of a symbol word, its low `P_DUR_W` bits (30 R75). -/
def symDur0 (p : Params) (w : SymbolWord) : Nat :=
  w % 2 ^ p.durW

/-- `lvl0` of a symbol word, the bit above `dur0` (30 R75). -/
def symLvl0 (p : Params) (w : SymbolWord) : Bool :=
  w / 2 ^ p.durW % 2 == 1

/-- `dur1` of a symbol word, the `P_DUR_W` bits above `lvl0` (30 R75). -/
def symDur1 (p : Params) (w : SymbolWord) : Nat :=
  w / 2 ^ p.durW / 2 % 2 ^ p.durW

/-- `lvl1` of a symbol word, its top bit (30 R75). -/
def symLvl1 (p : Params) (w : SymbolWord) : Bool :=
  w / 2 ^ p.durW / 2 / 2 ^ p.durW % 2 == 1

/-- `SYM_ONE` (30 R76). -/
def symOne (p : Params) : SymbolWord :=
  symbolWord p p.t1h true p.t1l false

/-- `SYM_ZERO` (30 R76). -/
def symZero (p : Params) : SymbolWord :=
  symbolWord p p.t0h true p.t0l false

/-- `SYM_PAUSE` (30 R76). -/
def symPause (p : Params) : SymbolWord :=
  symbolWord p p.pauseTicks false 0 false

/-- `symbolFor(b)`, the look-up table (40 R103). -/
def symbolFor (p : Params) (b : Bool) : SymbolWord :=
  if b then symOne p else symZero p

/-- `toPulseTrain(frame)`: the 16 bits, most significant first, then the pause (40 R104). -/
def toPulseTrain (p : Params) (f : Frame) : PulseBuffer :=
  #v[symbolFor p (f.getLsbD 15), symbolFor p (f.getLsbD 14), symbolFor p (f.getLsbD 13),
    symbolFor p (f.getLsbD 12), symbolFor p (f.getLsbD 11), symbolFor p (f.getLsbD 10),
    symbolFor p (f.getLsbD 9), symbolFor p (f.getLsbD 8), symbolFor p (f.getLsbD 7),
    symbolFor p (f.getLsbD 6), symbolFor p (f.getLsbD 5), symbolFor p (f.getLsbD 4),
    symbolFor p (f.getLsbD 3), symbolFor p (f.getLsbD 2), symbolFor p (f.getLsbD 1),
    symbolFor p (f.getLsbD 0), symPause p]

/-- `L(frame, k)`: the wire level at protocol tick `k` after the start of a train (40 R105). -/
def wireLevel (p : Params) (f : Frame) (k : Nat) : Bool :=
  if k < 16 * p.ticksPerBit then
    decide (k % p.ticksPerBit
      < (if f.getLsbD (15 - k / p.ticksPerBit) then p.t1h else p.t0h))
  else false

/-- The protocol ticks one train lasts, whatever the frame (40 R106). -/
def trainTicks (p : Params) : Nat :=
  16 * p.ticksPerBit + p.pauseTicks

end Sys2Proof.Machine
end

