-- ==== Sys2Proof/Machine/Operands.lean ====
section
/-! DEFINITION. The frames the sequencer sends, each an encodeFrame of an 11-bit payload (40 R102, 41 R146). The argument fields of the commands are argPin to argBlock of Decode. -/

namespace Sys2Proof.Machine

/-- The all-zero reset frame of `INIT`, `encodeFrame(0, 0)` (41 R134, R140). -/
def resetFrame : Frame :=
  encodeFrame 0 false

/-- `F48 = encodeFrame(P_THR_MIN, 0)`, the minimum-throttle frame (41 R146). -/
def minThrottleFrame (p : Params) : Frame :=
  encodeFrame (BitVec.ofNat 11 p.thrMin) false

/-- `FD`: the direction frame of `SET_REVERSED` (41 R146). -/
def directionFrame (p : Params) (a : Arg) : Frame :=
  encodeFrame (BitVec.ofNat 11 (if argFlag a then p.cmdDirReversed else p.cmdDirNormal)) p.cmdTelemetry

/-- `FB`: the beep frame (41 R146). -/
def beepFrame (p : Params) : Frame :=
  encodeFrame (BitVec.ofNat 11 p.cmdBeep) p.cmdTelemetry

/-- The frame of `SEND_THROTTLE`, `encodeFrame(arg[10:0], 0)` (41 R146). -/
def throttleFrame (a : Arg) : Frame :=
  encodeFrame (argPayload a) false

/-- The frame of `SEND_PACKET`, `encodeFrame(arg[10:0], arg[11])` (41 R146). -/
def packetFrame (a : Arg) : Frame :=
  encodeFrame (argPayload a) (argTelemetry a)

/-- A number as a register of `width` bits holds it. DESIGN CHOICE: where it does not fit, which the spec
does not describe and the default widths exclude, the register holds a free value (log 26). -/
def fitted (width value : Nat) : Nat :=
  if value < 2 ^ width then value else Config.oversized width value % 2 ^ width

end Sys2Proof.Machine
end

