-- ==== Sys2Proof/Machine/Flags.lean ====
section
/-! DEFINITION. The conditions the rows of 41 R146 test. The block has no condition flags (10 R40): every condition is a gate on the tick count, a port value or a counter. -/

namespace Sys2Proof.Machine

/-- `elapsed(t) = now - t`, subtraction modulo `2 ^ P_TICK_W` (41 R132). -/
def elapsedTicks (p : Params) (now t : Tick) : Nat :=
  (now % 2 ^ p.tickW + (2 ^ p.tickW - t % 2 ^ p.tickW)) % 2 ^ p.tickW

/-- `elapsed(t)` in a state (41 R132). -/
def elapsed (s : State) (t : Tick) : Nat :=
  elapsedTicks s.params s.env.now t

/-- `TO`: the timeout is finite and has elapsed since `tw` (41 R133, R146). -/
def timedOut (s : State) : Bool :=
  match s.params.txTimeout with
  | none => false
  | some limit => decide (limit ≤ elapsed s s.tw)

/-- `W(ctx)`: the length of the hold window (41 R137, R146). -/
def holdWindow (p : Params) : Ctx → Nat
  | .arm => p.armTicks
  | .rev => p.revHoldTicks

/-- The hold window is over: `elapsed(t0) >= W(ctx)` (41 R137). -/
def windowOver (s : State) : Bool :=
  decide (holdWindow s.params s.ctx ≤ elapsed s s.t0)

/-- The yield is over: `elapsed(ty) >= P_YIELD_TICKS` (41 R136). -/
def yieldOver (s : State) : Bool :=
  decide (s.params.yieldTicks ≤ elapsed s s.ty)

/-- The beep sleep is over: `elapsed(ty) >= P_BEEP_SLEEP_TICKS` (41 R136). -/
def sleepOver (s : State) : Bool :=
  decide (s.params.beepSleepTicks ≤ elapsed s s.ty)

/-- The width of `cnt`: 6 bits, or as many as the larger repeat count needs (10 R26). -/
def cntWidth (p : Params) : Nat :=
  if 63 < max p.resetFrames p.dirRepeats then Nat.log2 (max p.resetFrames p.dirRepeats) + 1 else 6

/-- `cnt + 1` as register `cnt` holds it (10 R26). -/
def cntSucc (s : State) : Nat :=
  (s.cnt + 1) % 2 ^ cntWidth s.params

/-- A further reset frame follows: `cnt + 1 < P_RESET_FRAMES` (41 R140). -/
def moreResetFrames (s : State) : Bool :=
  decide (s.cnt + 1 < s.params.resetFrames)

/-- A further direction frame follows: `cnt + 1 < P_DIR_REPEATS` (41 R142). -/
def moreDirFrames (s : State) : Bool :=
  decide (s.cnt + 1 < s.params.dirRepeats)

/-- The value of `SEND_THROTTLE` lies in the accepted range (41 R131 row 3, R141). -/
def throttleInRange (p : Params) (v : Arg) : Bool :=
  decide (p.thrMin ≤ v.toNat) && decide (v.toNat ≤ p.thrMax)

/-- The phases of `INIT` and `SET_REVERSED`, whose abort drops `lifecycle` to `INSTALLED` (41 R138). -/
def Phase.ofInitOrReverse : Phase → Bool
  | .rstIssue | .rstDrain | .armIssue | .holdIssue | .holdYield | .revFlush | .dirIssue
  | .dirDrain => true
  | .idle | .cfgWait | .beepIssue | .beepDrain | .beepSleep | .thrIssue | .pktIssue
  | .pktDrain => false

/-- The phases that wait on the transmitter (41 R133). -/
def Phase.waitsOnTransmitter : Phase → Bool
  | .rstIssue | .rstDrain | .armIssue | .holdIssue | .revFlush | .dirIssue | .dirDrain
  | .beepIssue | .beepDrain | .thrIssue | .pktIssue | .pktDrain => true
  | .idle | .cfgWait | .holdYield | .beepSleep => false

end Sys2Proof.Machine
end

