-- ==== Sys2Proof/Machine/Ops.lean ====
section
/-! DEFINITION. The primitives every row is built from (41 section 2): waiting, completing, aborting, issuing, awaiting an idle transmitter, and reset. -/

namespace Sys2Proof.Machine

/-- What a row of 41 R146, a meaning or a step answers. -/
abbrev Result := Host.Outcome State Fault Refusal

/-- A step that waits writes nothing but `rsp_valid <- 0` (41 R147 item 4). -/
def hold (s : State) : State :=
  { s with rspValid := false }

/-- `complete(s)` (41 R138): the response is raised and the sequencer returns to `IDLE` (log 24). -/
def complete (st : Status) (s : State) : State :=
  { s with rspValid := true, rspStatus := st, phase := .idle }

/-- `raise E` (41 R138, 60 R204): the one operation by which an error ends a command. `INIT` and
`SET_REVERSED` fall back to `INSTALLED`; nothing else is saved (60 R207). -/
def abort (st : Status) (s : State) : State :=
  complete st
    { s with lifecycle := if s.phase.ofInitOrReverse then .installed else s.lifecycle }

/-- The atomic load of all 17 entries by an `issue` (20 R54, 41 R134). -/
def loadTrain (f : Frame) (s : State) : State :=
  { s with pbuf := toPulseTrain s.params f }

/-- The transmitter accepts the start of the loaded train (60 R212 items 1 and 2). -/
def startFlight (s : State) : State :=
  { s with env := { s.env with flight := some 0 } }

/-- `issue(f)` (41 R134), with `rest` the rest of its row. A refused start leaves the new train in
the buffer and aborts instead of the rest. A write while a train is in flight is a fault (20 R59);
it needs a transmitter that dropped `tx_busy` early (log 10). -/
def issue (f : Frame) (rest : State → State) (s : State) : Result :=
  if s.env.flight.isSome then .fault .pulseBufferOverwrite
  else if s.env.startErr then .next (abort .txErr (loadTrain f s))
  else .next (rest (startFlight (loadTrain f s)))

/-- `await_idle` (41 R133): an idle transmitter lets `progress` run, an elapsed timeout aborts, and
otherwise the phase holds. -/
def awaitIdle (progress : State → Result) (s : State) : Result :=
  if s.env.txBusy = false then progress s
  else if timedOut s then .next (abort .txErr s)
  else .next (hold s)

/-- The start of `hold(W)` (41 R137). -/
def startHold (c : Ctx) (s : State) : State :=
  { s with t0 := s.env.now, ctx := c, tw := s.env.now, phase := .holdIssue, rspValid := false }

/-- A step with `rst = 1` (70 R230): every register takes its reset value, `PBUF` is not written. -/
def resetBlock (s : State) : State :=
  { s with
    lifecycle := .uninstalled, dirRev := false, cfgPin := 0, cfgChannel := 0, phase := .idle,
    ctx := .arm, cnt := 0, arg := 0, t0 := 0, ty := 0, tw := 0, rspValid := false,
    rspStatus := .ok }

end Sys2Proof.Machine
end

