-- ==== Sys2Proof/Machine/Beep.lean ====
section
/-! DEFINITION. BEEP after its acceptance checks (41 R143): its start and its rows of 41 R146. -/

namespace Sys2Proof.Machine

/-- First-step actions of `BEEP` (41 R143). -/
def startBeep (s : State) : State :=
  { s with tw := s.env.now, phase := .beepIssue }

/-- The row of `BEEP_ISSUE` (41 R146). -/
def rowBeepIssue (s : State) : Result :=
  awaitIdle (issue (beepFrame s.params) (fun t =>
    { t with tw := t.env.now, phase := .beepDrain, rspValid := false })) s

/-- The row of `BEEP_DRAIN` (41 R146): the sleep counts from the end of the beep frame (41 R143). -/
def rowBeepDrain (s : State) : Result :=
  awaitIdle (fun s =>
    .next { s with ty := s.env.now, phase := .beepSleep, rspValid := false }) s

/-- The rows of `BEEP_SLEEP` (41 R146). -/
def rowBeepSleep (s : State) : Result :=
  .next (if sleepOver s then complete .ok s else hold s)

end Sys2Proof.Machine
end

