-- ==== Sys2Proof/Machine/HoldWindow.lean ====
section
/-! DEFINITION. The hold window shared by INIT with wait and SET_REVERSED (41 R137): its rows of 41 R146. -/

namespace Sys2Proof.Machine

/-- The exit of a hold window: `INIT` completes (41 R140), `SET_REVERSED` starts stage 3 (41 R142). -/
def exitHold (s : State) : State :=
  match s.ctx with
  | .arm => complete .ok { s with lifecycle := .armed }
  | .rev => { s with cnt := 0, tw := s.env.now, phase := .dirIssue, rspValid := false }

/-- The rows of `HOLD_ISSUE` (41 R146): the gate is tested after the idle wait and in the step of
the issue, so no frame is issued once the window has closed (41 R137). -/
def rowHoldIssue (s : State) : Result :=
  awaitIdle (fun s =>
    if windowOver s then .next (exitHold s)
    else issue (minThrottleFrame s.params) (fun t =>
      { t with ty := t.env.now, phase := .holdYield, rspValid := false }) s) s

/-- The rows of `HOLD_YIELD` (41 R146). -/
def rowHoldYield (s : State) : Result :=
  .next (
    if yieldOver s then { s with tw := s.env.now, phase := .holdIssue, rspValid := false }
    else hold s)

end Sys2Proof.Machine
end

