-- ==== Sys2Proof/Machine/Init.lean ====
section
/-! DEFINITION. INIT after its acceptance checks (41 R140): its start and its rows of 41 R146, the hold window apart. -/

namespace Sys2Proof.Machine

/-- First-step actions of `INIT` (41 R140). -/
def startInit (s : State) : State :=
  { s with cnt := 0, tw := s.env.now, phase := .rstIssue }

/-- The row of `RST_ISSUE` (41 R146). -/
def rowRstIssue (s : State) : Result :=
  awaitIdle (issue resetFrame (fun t =>
    { t with tw := t.env.now, phase := .rstDrain, rspValid := false })) s

/-- The rows of `RST_DRAIN` (41 R146). A counter already past the limit, which no run reaches,
takes the `else` of 41 R140 (log 15). -/
def rowRstDrain (s : State) : Result :=
  awaitIdle (fun s =>
    .next (
      if moreResetFrames s then
        { s with cnt := cntSucc s, tw := s.env.now, phase := .rstIssue, rspValid := false }
      else if argFlag s.arg then startHold .arm { s with cnt := cntSucc s }
      else { s with cnt := cntSucc s, tw := s.env.now, phase := .armIssue, rspValid := false })) s

/-- The row of `ARM_ISSUE` (41 R146). -/
def rowArmIssue (s : State) : Result :=
  awaitIdle (issue (minThrottleFrame s.params) (fun t =>
    complete .ok { t with lifecycle := .armed })) s

end Sys2Proof.Machine
end

