-- ==== Sys2Proof/Machine/Install.lean ====
section
/-! DEFINITION. INSTALL after its acceptance checks (41 R139): its start and its row of 41 R146. -/

namespace Sys2Proof.Machine

/-- First-step actions of `INSTALL` (41 R139), the operands as registers of `P_PIN_W` and `P_CH_W` bits
hold them (10 R23). -/
def startInstall (pin : BitVec 8) (channel : BitVec 3) (s : State) : State :=
  { s with
    cfgPin := fitted s.params.pinW pin.toNat, cfgChannel := fitted s.params.chW channel.toNat,
    phase := .cfgWait }

/-- The rows of `CFG_WAIT` (41 R146). -/
def rowCfgWait (s : State) : Result :=
  if s.env.cfgAck then
    if s.env.cfgErr then .next (complete .configErr { s with lifecycle := .failed })
    else .next (complete .ok { s with lifecycle := .installed })
  else .next (hold s)

end Sys2Proof.Machine
end

