-- ==== Sys2Proof/Machine/Packet.lean ====
section
/-! DEFINITION. SEND_PACKET after its acceptance checks (41 R144): its start and its rows of 41 R146. -/

namespace Sys2Proof.Machine

/-- First-step actions of `SEND_PACKET` (41 R144). -/
def startPacket (s : State) : State :=
  { s with tw := s.env.now, phase := .pktIssue }

/-- The rows of `PKT_ISSUE` (41 R146). -/
def rowPktIssue (s : State) : Result :=
  awaitIdle (issue (packetFrame s.arg) (fun t =>
    if argBlock t.arg then { t with tw := t.env.now, phase := .pktDrain, rspValid := false }
    else complete .ok t)) s

/-- The row of `PKT_DRAIN` (41 R146). -/
def rowPktDrain (s : State) : Result :=
  awaitIdle (fun s => .next (complete .ok s)) s

end Sys2Proof.Machine
end

