-- ==== Sys2Proof/Machine/Reverse.lean ====
section
/-! DEFINITION. SET_REVERSED after its acceptance checks (41 R142): its start and its rows of 41 R146, the hold window apart. -/

namespace Sys2Proof.Machine

/-- First-step actions of `SET_REVERSED` (41 R142). -/
def startReverse (s : State) : State :=
  { s with tw := s.env.now, phase := .revFlush }

/-- The row of `REV_FLUSH` (41 R146). -/
def rowRevFlush (s : State) : Result :=
  awaitIdle (fun s => .next (startHold .rev s)) s

/-- The row of `DIR_ISSUE` (41 R146). -/
def rowDirIssue (s : State) : Result :=
  awaitIdle (issue (directionFrame s.params s.arg) (fun t =>
    { t with tw := t.env.now, phase := .dirDrain, rspValid := false })) s

/-- The rows of `DIR_DRAIN` (41 R146). A counter already past the limit, which no run reaches,
takes the `else` of 41 R142 (log 15). -/
def rowDirDrain (s : State) : Result :=
  awaitIdle (fun s =>
    .next (
      if moreDirFrames s then
        { s with cnt := cntSucc s, tw := s.env.now, phase := .dirIssue, rspValid := false }
      else complete .ok { s with cnt := cntSucc s, dirRev := argFlag s.arg })) s

end Sys2Proof.Machine
end

