-- ==== Sys2Proof/Machine/Throttle.lean ====
section
/-! DEFINITION. SEND_THROTTLE after its acceptance checks (41 R141): its start and its row of 41 R146. -/

namespace Sys2Proof.Machine

/-- First-step actions of `SEND_THROTTLE` (41 R141). -/
def startThrottle (s : State) : State :=
  { s with tw := s.env.now, phase := .thrIssue }

/-- The row of `THR_ISSUE` (41 R146). -/
def rowThrIssue (s : State) : Result :=
  awaitIdle (issue (throttleFrame s.arg) (complete .ok)) s

end Sys2Proof.Machine
end

