-- ==== Sys2Proof/Machine/Phases.lean ====
section
/-! DEFINITION. The phase-transition table (41 R146), one row definition per phase, and the acceptance and dispatch of a command (41 R130, R131). -/

namespace Sys2Proof.Machine

/-- The row of the current phase when no command is accepted (41 R146); in `IDLE` nothing changes
but `rsp_valid <- 0` (41 R130). -/
def runPhase (s : State) : Result :=
  match s.phase with
  | .idle => .next (hold s)
  | .cfgWait => rowCfgWait s
  | .rstIssue => rowRstIssue s
  | .rstDrain => rowRstDrain s
  | .armIssue => rowArmIssue s
  | .holdIssue => rowHoldIssue s
  | .holdYield => rowHoldYield s
  | .revFlush => rowRevFlush s
  | .dirIssue => rowDirIssue s
  | .dirDrain => rowDirDrain s
  | .beepIssue => rowBeepIssue s
  | .beepDrain => rowBeepDrain s
  | .beepSleep => rowBeepSleep s
  | .thrIssue => rowThrIssue s
  | .pktIssue => rowPktIssue s
  | .pktDrain => rowPktDrain s

/-- 41 R131 row 2: the operation is reserved. -/
def isReserved : Instr → Bool
  | .reservedOp0 _ | .reservedOp7 _ => true
  | .install _ _ _ | .init _ _ | .sendThrottle _ | .setReversed _ _ | .beep _
  | .sendPacket _ _ _ _ => false

/-- 41 R131 row 3: a `SEND_THROTTLE` whose value is out of range. -/
def isThrottleOutOfRange (p : Params) : Instr → Bool
  | .sendThrottle v => !throttleInRange p v
  | .reservedOp0 _ | .install _ _ _ | .init _ _ | .setReversed _ _ | .beep _
  | .sendPacket _ _ _ _ | .reservedOp7 _ => false

/-- 41 R131 rows 4 and 5: the operation is `INSTALL`. -/
def isInstall : Instr → Bool
  | .install _ _ _ => true
  | .reservedOp0 _ | .init _ _ | .sendThrottle _ | .setReversed _ _ | .beep _
  | .sendPacket _ _ _ _ | .reservedOp7 _ => false

/-- Rows 1 to 5 of 41 R131 in their order: the status with which the accept step rejects a command,
`none` where row 6 starts it. -/
def rejection (p : Params) (l : Lifecycle) (i : Instr) : Option Status :=
  if l = .failed then some .configErr
  else if isReserved i then some .invalidArg
  else if isThrottleOutOfRange p i then some .invalidArg
  else if isInstall i ∧ (l = .installed ∨ l = .armed) then some .invalidArg
  else if isInstall i = false ∧ l = .uninstalled then some .txErr
  else none

/-- A command on the port (41 R130): in `IDLE` it is accepted, `arg` takes its argument, and it is
rejected or started by 41 R131; in any other phase it is not accepted and the running command's row
fires (log 16). -/
def command (i : Instr) (start : State → State) (s : State) : Result :=
  if s.phase = .idle then
    match rejection s.params s.lifecycle i with
    | some st => .next (complete st { s with arg := i.arg })
    | none => .next (start { s with arg := i.arg, rspValid := false })
  else runPhase s

end Sys2Proof.Machine
end

