-- ==== Sys2Proof/Machine/Commands.lean ====
section
/-! DEFINITION. The meaning of every command on the host port, one definition per row of the opcode table (41 R139 to R145). -/

namespace Sys2Proof.Machine

/-- Reserved operation 0 (41 R145): always rejected by 41 R131 row 2, or row 1 if `FAILED`. -/
def execReservedOp0 (ignored : BitVec 16) (s : State) : Result :=
  command (.reservedOp0 ignored) hold s

/-- `INSTALL` (41 R139). -/
def execInstall (pin : BitVec 8) (channel : BitVec 3) (ignored : BitVec 5) (s : State) : Result :=
  command (.install pin channel ignored) (startInstall pin channel) s

/-- `INIT` (41 R140); `wait` is read back from `arg[0]` in `RST_DRAIN`. -/
def execInit (wait : Bool) (ignored : BitVec 15) (s : State) : Result :=
  command (.init wait ignored) startInit s

/-- `SEND_THROTTLE` (41 R141). -/
def execSendThrottle (value : BitVec 16) (s : State) : Result :=
  command (.sendThrottle value) startThrottle s

/-- `SET_REVERSED` (41 R142); `reversed` is read back from `arg[0]` in `DIR_ISSUE` and `DIR_DRAIN`. -/
def execSetReversed (reversed : Bool) (ignored : BitVec 15) (s : State) : Result :=
  command (.setReversed reversed ignored) startReverse s

/-- `BEEP` (41 R143). -/
def execBeep (ignored : BitVec 16) (s : State) : Result :=
  command (.beep ignored) startBeep s

/-- `SEND_PACKET` (41 R144); its fields are read back from `arg` in `PKT_ISSUE`. -/
def execSendPacket (payload : Payload) (telemetry block : Bool) (ignored : BitVec 3)
    (s : State) : Result :=
  command (.sendPacket payload telemetry block ignored) startPacket s

/-- Reserved operation 7 (41 R145): always rejected by 41 R131 row 2, or row 1 if `FAILED`. -/
def execReservedOp7 (ignored : BitVec 16) (s : State) : Result :=
  command (.reservedOp7 ignored) hold s

end Sys2Proof.Machine
end

