-- ==== Sys2Proof/Machine/Dispatch.lean ====
section
/-! DEFINITION. The dispatch of a command on the host port to its meaning, one arm per constructor of Instr. -/

namespace Sys2Proof.Machine

-- One arm per row of spec/opcode_table.json.
def exec (i : Instr) (s : State) : Host.Outcome State Fault Refusal :=
  match i with
  | .reservedOp0 ignored => Sys2Proof.Machine.execReservedOp0 ignored s
  | .install pin channel ignored => Sys2Proof.Machine.execInstall pin channel ignored s
  | .init wait ignored => Sys2Proof.Machine.execInit wait ignored s
  | .sendThrottle value => Sys2Proof.Machine.execSendThrottle value s
  | .setReversed reversed ignored => Sys2Proof.Machine.execSetReversed reversed ignored s
  | .beep ignored => Sys2Proof.Machine.execBeep ignored s
  | .sendPacket payload telemetry block ignored => Sys2Proof.Machine.execSendPacket payload telemetry block ignored s
  | .reservedOp7 ignored => Sys2Proof.Machine.execReservedOp7 ignored s

end Sys2Proof.Machine
end

