-- ==== Sys2Proof/Machine/Transmitter.lean ====
section
/-! DEFINITION. The transmitter's side of the pulse port (10 R36, 60 R212): how it reads the pulse buffer, what it puts on the wire, and how far a train in flight goes in one step. -/

namespace Sys2Proof.Machine

/-- The read port: `PBUF[pbuf_raddr]`, `none` above entry 16, where the spec gives no value and calls
the read a fault of the transmitter (10 R36, 20 R50, 93 U14). -/
def readEntry (b : PulseBuffer) (raddr : BitVec 5) : Option SymbolWord :=
  b[raddr.toNat]?

/-- A sub-interval: a duration in protocol ticks and a level (30 R74). -/
abbrev Interval := Nat × Bool

/-- The two sub-intervals of a symbol word, in the order of emission (20 R51, 30 R75). -/
def symbolIntervals (p : Params) (w : SymbolWord) : List Interval :=
  [(symDur0 p w, symLvl0 p w), (symDur1 p w, symLvl1 p w)]

/-- The sub-intervals of the buffer in the order of emission (60 R212 item 3). -/
def bufferIntervals (p : Params) (b : PulseBuffer) : List Interval :=
  b.toList.flatMap (symbolIntervals p)

/-- The level the transmitter drives `k` protocol ticks after a start: it emits sub-interval after
sub-interval, stops at the first of duration 0, and then drives the idle level (60 R212 item 3). -/
def levelAt : List Interval → Nat → Bool
  | [], _ => false
  | (d, l) :: rest, k => if d = 0 then false else if k < d then l else levelAt rest (k - d)

/-- The ticks emitted up to the first sub-interval of duration 0 (30 R74), `none` if there is none. -/
def ticksToEnd : List Interval → Option Nat
  | [] => none
  | (d, _) :: rest => if d = 0 then some 0 else (ticksToEnd rest).map (d + ·)

/-- The ticks of all sub-intervals together. -/
def allTicks : List Interval → Nat
  | [] => 0
  | (d, _) :: rest => d + allTicks rest

/-- The transmitter emits `n` more ticks of a train of which it has emitted `pos` (60 R212 items 2
and 3): the answer is the new position, or none once the train has ended. A buffer without an end
leads it past entry 16, which is a fault (20 R50; log 11). -/
def emit (p : Params) (b : PulseBuffer) (pos n : Nat) : Except Fault (Option Nat) :=
  match ticksToEnd (bufferIntervals p b) with
  | some total => .ok (if pos + n < total then some (pos + n) else none)
  | none =>
    if pos + n < allTicks (bufferIntervals p b) then .ok (some (pos + n))
    else .error .pulseBufferReadOutOfRange

/-- The level on the wire at the start of a step (60 R212 item 3, 40 R105). -/
def wireNow (s : State) : Bool :=
  match s.env.flight with
  | none => false
  | some pos => levelAt (bufferIntervals s.params s.pbuf) pos

end Sys2Proof.Machine
end

