-- ==== Sys2Proof/Machine/Outputs.lean ====
section
/-! DEFINITION. The output ports of the block (10 R33, R35 to R37), the numbers of the named values (10 R21, R24, R25, 60 R200), and the events a step produces (41 R149). All are functions of the state: no output has storage of its own. -/

namespace Sys2Proof.Machine

/-- The 2-bit value of `lifecycle` (10 R21). -/
def Lifecycle.code : Lifecycle → BitVec 2
  | .uninstalled => 0
  | .installed => 1
  | .armed => 2
  | .failed => 3

/-- The 4-bit value of `phase` (10 R24). -/
def Phase.code : Phase → BitVec 4
  | .idle => 0
  | .cfgWait => 1
  | .rstIssue => 2
  | .rstDrain => 3
  | .armIssue => 4
  | .holdIssue => 5
  | .holdYield => 6
  | .revFlush => 7
  | .dirIssue => 8
  | .dirDrain => 9
  | .beepIssue => 10
  | .beepDrain => 11
  | .beepSleep => 12
  | .thrIssue => 13
  | .pktIssue => 14
  | .pktDrain => 15

/-- The 1-bit value of `ctx` (10 R25). -/
def Ctx.code : Ctx → BitVec 1
  | .arm => 0
  | .rev => 1

/-- The 2-bit code of a status (60 R200). -/
def Status.code : Status → BitVec 2
  | .ok => 0
  | .configErr => 1
  | .invalidArg => 2
  | .txErr => 3

/-- `cfg_req`: 1 while `phase = CFG_WAIT` (10 R37), and 0 in a reset step (70 R230). -/
def cfgReq (s : State) : Bool :=
  !s.env.rst && decide (s.phase = .cfgWait)

/-- The command accepted in this step: one is presented in `IDLE` (41 R130), and no reset (70 R230;
log 12). -/
def accepted (s : State) : Option Instr :=
  if s.env.rst then none
  else if s.phase = .idle then s.env.cmd.map decode
  else none

/-- The frame issued in this step, if any: the rows of 41 R146 that name `issue`, in a step without
reset (70 R230) and with an idle transmitter (41 R134). -/
def issuedFrame (s : State) : Option Frame :=
  if s.env.rst then none
  else if s.env.txBusy then none
  else match s.phase with
    | .rstIssue => some resetFrame
    | .armIssue => some (minThrottleFrame s.params)
    | .holdIssue => if windowOver s then none else some (minThrottleFrame s.params)
    | .dirIssue => some (directionFrame s.params s.arg)
    | .beepIssue => some (beepFrame s.params)
    | .thrIssue => some (throttleFrame s.arg)
    | .pktIssue => some (packetFrame s.arg)
    | .idle | .cfgWait | .rstDrain | .holdYield | .revFlush | .dirDrain | .beepDrain
    | .beepSleep | .pktDrain => none

/-- The output ports in a step (10 R33, R35, R36, R37). -/
structure Outputs where
  cmdReady : Bool
  busy : Bool
  stLifecycle : BitVec 2
  stDirRev : Bool
  rspValid : Bool
  rspStatus : BitVec 2
  txStart : Bool
  cfgReq : Bool
  cfgPin : Pin
  cfgChannel : Channel
  cfgIdleLevel : Bool
  cfgOutEn : Bool
  cfgCarrier : Bool
  cfgLoop : Bool
  cfgClkDiv : Nat
  deriving DecidableEq, Repr

/-- The values driven on the output ports; the transmitter's read port is `readEntry`. -/
def outputs (s : State) : Outputs where
  cmdReady := decide (s.phase = .idle)
  busy := !decide (s.phase = .idle)
  stLifecycle := s.lifecycle.code
  stDirRev := s.dirRev
  rspValid := s.rspValid
  rspStatus := s.rspStatus.code
  txStart := (issuedFrame s).isSome
  cfgReq := cfgReq s
  cfgPin := s.cfgPin
  cfgChannel := s.cfgChannel
  cfgIdleLevel := false
  cfgOutEn := true
  cfgCarrier := false
  cfgLoop := false
  cfgClkDiv := s.params.clkDiv

/-- What the block's configure port asks for (10 R37), the configuration a success leaves (60 R213). -/
def requestedConfig (s : State) : TxConfig where
  pin := (outputs s).cfgPin
  channel := (outputs s).cfgChannel
  idleLevel := (outputs s).cfgIdleLevel
  outEnabled := (outputs s).cfgOutEn
  carrier := (outputs s).cfgCarrier
  loop := (outputs s).cfgLoop
  clkDiv := (outputs s).cfgClkDiv

/-- An event of a run (41 R149). -/
inductive Event where
  | accept (op : BitVec 3) (arg : Arg)
  | issue (frame : Frame) (accepted : Bool)
  /-- `cfg_req = 1`, one event per step (DESIGN CHOICE, log 27); the answer is `cfg_err` in a step with
  `cfg_ack = 1`. -/
  | configure (pin : Pin) (channel : Channel) (answer : Option Bool)
  | respond (status : Status)
  deriving DecidableEq, Repr

/-- The events of the step taken from a state (41 R149). `Respond` falls in the step in which
`rsp_valid = 1`, the step after the completion (log 21). DESIGN CHOICE: 41 R149 does not say whether
`Configure` is one event per request or per step, nor how the events of one step are ordered; here it is
one in every step with `cfg_req = 1` (log 27), and the order is the one written (log 28). -/
def stepEvents (s : State) : List Event :=
  (if s.rspValid then [.respond s.rspStatus] else [])
    ++ (match accepted s with
        | some i => [.accept i.op i.arg]
        | none => [])
    ++ (if cfgReq s then
          [.configure s.cfgPin s.cfgChannel (if s.env.cfgAck then some s.env.cfgErr else none)]
        else [])
    ++ (match issuedFrame s with
        | some f => [.issue f (!s.env.startErr)]
        | none => [])

end Sys2Proof.Machine
end

