-- ==== Sys2Proof/Machine/Environment.lean ====
section
/-! DEFINITION. The environment agents' part of a step (00 R10): the moves 60 R211 to R213 and 10 R34 allow them, and the port values of the next step. -/

namespace Sys2Proof.Machine

/-- The environment's move in this step: the next decided one, or a free one (log 6). -/
def nextMove (e : Env) : EnvMove :=
  match e.moves with
  | m :: _ => m
  | [] => Config.freeMove e.freeIx

/-- The timebase's move (60 R211): `now_ticks` stays or advances by less than `2 ^ (P_TICK_W - 1)`,
modulo `2 ^ P_TICK_W` (log 7). -/
def nextNow (p : Params) (now : Tick) (m : EnvMove) : Tick :=
  (now + m.tickAdvance % 2 ^ (p.tickW - 1)) % 2 ^ p.tickW

/-- The host's move (10 R34; log 13). -/
def nextCmd (s : State) (m : EnvMove) : Option CmdWord :=
  match m.host with
  | .hold => if (accepted s).isSome then none else s.env.cmd
  | .present w => some w
  | .drop => none

/-- The transmitter's answer to a configure request (60 R213): only in a step with `cfg_req = 1`
that follows a step with `cfg_req = 1`, and once. `t` is the block after this step (log 14). -/
def nextCfgAck (s t : State) (m : EnvMove) : Bool :=
  m.cfgAnswer && cfgReq s && decide (t.phase = .cfgWait) && !m.rst

/-- The configuration of the transmitter after this step (60 R213, 70 R231; log 14). -/
def nextTxConfig (s : State) : Option TxConfig :=
  if cfgReq s && s.env.cfgAck && !s.env.cfgErr then some (requestedConfig s) else s.env.txConfig

/-- The train in flight after this step (60 R212 items 1 and 2): one in flight at the start of the
step goes on, one started in this step is in flight from the next step. -/
def nextFlight (s t : State) (m : EnvMove) : Except Fault (Option Nat) :=
  match s.env.flight with
  | none => .ok t.env.flight
  | some pos => emit s.params s.pbuf pos m.emitTicks

/-- The environment after this step. `flight` is the train in flight then; `tx_busy` is 1 exactly
while one is (60 R212 items 2 and 5). -/
def nextEnv (s t : State) (m : EnvMove) (flight : Option Nat) : Env where
  rst := m.rst
  cmd := nextCmd s m
  txBusy := flight.isSome
  startErr := m.startErr
  cfgAck := nextCfgAck s t m
  cfgErr := m.cfgErr
  now := nextNow s.params s.env.now m
  flight := flight
  txConfig := nextTxConfig s
  moves := s.env.moves.tail
  freeIx := if s.env.moves = [] then s.env.freeIx + 1 else s.env.freeIx

/-- The end of a step from `s` in which the block reached `t`: the environment moves. -/
def advance (s t : State) : Result :=
  match nextFlight s t (nextMove s.env) with
  | .ok flight => .next { t with env := nextEnv s t (nextMove s.env) flight }
  | .error f => .fault f

end Sys2Proof.Machine
end

