-- ==== Sys2Proof/Machine/Cycle.lean ====
section
/-! DEFINITION. One clock cycle of the block and its environment (41 R146, R147, 70 R230), and how a command is put where the next cycle takes it. -/

namespace Sys2Proof.Machine

/-- The block's part of a step: reset (70 R230), the command on the port (41 R130), or the row of
the current phase (41 R146). -/
def blockStep (s : State) : Result :=
  if s.env.rst then .next (resetBlock s)
  else match s.env.cmd with
    | some w => exec (decode w) s
    | none => runPhase s

/-- One step (41 R147): the block's row, then the environment's move. An illegal configuration is
refused (00 R6, 93 U24; log 17). -/
def cycle (s : State) : Result :=
  if s.params.legal then
    match blockStep s with
    | .next t => advance s t
    | .fault f => .fault f
    | .refused r => .refused r
  else .refused .illegalConfiguration

/-- The state with a command word on the port of an idle sequencer and no reset: the next cycle
accepts it (41 R130; log 20). -/
def presentWord (s : State) (w : CmdWord) : State :=
  { s with phase := .idle, env := { s.env with rst := false, cmd := some w } }

end Sys2Proof.Machine
end

