-- ==== Sys2Proof/Machine/Step.lean ====
section
/-! DEFINITION. The step of the machine, and the state in which the next step runs a given command. -/

namespace Sys2Proof.Machine

/-- One step of the machine: one rising edge of `clk` (41 R147). -/
def step (s : State) : Host.Outcome State Fault Refusal :=
  cycle s

/-- The state with a command placed where the next step takes it: the block fetches nothing, the
host presents the word (41 R130; log 20). -/
def State.withFetchWord (s : State) (nbits w : Nat) : State :=
  presentWord s (BitVec.ofNat 19 (w % 2 ^ nbits))

end Sys2Proof.Machine
end

