-- ==== Sys2Proof/Safety.lean ====
section
/-! DEFINITION. The terms in which claims are stated: the invariant of the machine, runs with the events they produce (41 R149), the run of one command, and the duty not to share a channel (60 R214). -/

namespace Sys2Proof.Machine

/-- A phase of the hold window (41 R137). -/
def Phase.inHold : Phase → Bool
  | .holdIssue | .holdYield => true
  | .idle | .cfgWait | .rstIssue | .rstDrain | .armIssue | .revFlush | .dirIssue | .dirDrain
  | .beepIssue | .beepDrain | .beepSleep | .thrIssue | .pktIssue | .pktDrain => false

/-- What holds at reset and after every step, of the block and of an environment within its
contracts. -/
structure Inv (s : State) : Prop where
  /-- The configuration is legal (00 R6). -/
  legal : s.params.legal = true
  /-- The tick count and every time stamp fit `P_TICK_W` bits (10 R28 to R30, R38). -/
  ticksFit : s.env.now < 2 ^ s.params.tickW ∧ s.t0 < 2 ^ s.params.tickW
    ∧ s.ty < 2 ^ s.params.tickW ∧ s.tw < 2 ^ s.params.tickW
  /-- The pin and the channel fit `P_PIN_W` and `P_CH_W` bits (10 R23). -/
  pinFits : s.cfgPin < 2 ^ s.params.pinW ∧ s.cfgChannel < 2 ^ s.params.chW
  /-- Every entry of the pulse buffer fits its width (10 R31). -/
  bufferFits : ∀ i : Fin 17, s.pbuf[i] < 2 ^ s.params.entryWidth
  /-- `cnt` counts no further than the repeat counts (10 R26). -/
  cntFits : s.cnt ≤ max s.params.resetFrames s.params.dirRepeats
  /-- While reset frames are sent, fewer than all have finished (41 R140). -/
  resetCount : s.phase = .rstIssue ∨ s.phase = .rstDrain → s.cnt < s.params.resetFrames
  /-- Minimum throttle follows exactly `P_RESET_FRAMES` reset frames (41 R140). -/
  armCount : s.phase = .armIssue ∨ (s.phase.inHold = true ∧ s.ctx = .arm) →
    s.cnt = s.params.resetFrames
  /-- While direction frames are sent, fewer than all have finished (41 R142). -/
  dirCount : s.phase = .dirIssue ∨ s.phase = .dirDrain → s.cnt < s.params.dirRepeats
  /-- `INSTALL` runs only in `UNINSTALLED` (41 R131 row 4). -/
  installing : s.phase = .cfgWait → s.lifecycle = .uninstalled
  /-- Every other command runs only in `INSTALLED` or `ARMED` (41 R131 rows 1 and 5). -/
  running : s.phase ≠ .idle → s.phase ≠ .cfgWait → s.lifecycle = .installed ∨ s.lifecycle = .armed
  /-- A throttle about to be sent is in range (41 R131 row 3, 40 R102). -/
  throttleBounded : s.phase = .thrIssue →
    s.params.thrMin ≤ s.arg.toNat ∧ s.arg.toNat ≤ s.params.thrMax
  /-- `INIT` holds only with `wait = 1` (41 R140). -/
  holdWaits : s.phase.inHold = true → s.ctx = .arm → argFlag s.arg = true
  /-- `INIT` sends its one minimum-throttle frame only with `wait = 0` (41 R140). -/
  armNoWait : s.phase = .armIssue → argFlag s.arg = false
  /-- `SEND_PACKET` drains only with `block = 1` (41 R144). -/
  drainBlocks : s.phase = .pktDrain → argBlock s.arg = true
  /-- `tx_busy` is 1 exactly while a train is in flight (60 R212 items 2 and 5). -/
  busyIsFlight : s.env.txBusy = s.env.flight.isSome
  /-- The train in flight is that of a packet, whole in the buffer and not yet ended (20 R57). -/
  flightTrain : ∀ pos, s.env.flight = some pos →
    (∃ q b, s.pbuf = toPulseTrain s.params (encodeFrame q b)) ∧ pos < trainTicks s.params
  /-- A configure answer comes only while it is awaited (60 R213). -/
  ackAwaited : s.env.cfgAck = true → s.phase = .cfgWait ∧ s.env.rst = false

/-- A run: steps that all answer a next state, with the events they produce, in order (41 R149). -/
inductive Run : State → List Event → State → Prop where
  | refl (s : State) : Run s [] s
  | more {s t u : State} {es : List Event} : step s = .next t → Run t es u →
      Run s (stepEvents s ++ es) u

/-- The rest of a running command: the steps up to the first state in `IDLE`. -/
inductive CommandRun : State → List Event → State → Prop where
  | done {s : State} : s.phase = .idle → CommandRun s [] s
  | more {s t u : State} {es : List Event} : s.phase ≠ .idle → step s = .next t →
      CommandRun t es u → CommandRun s (stepEvents s ++ es) u

/-- The starts among the events: each frame issued, with whether the transmitter accepted it. -/
def startsOf (es : List Event) : List (Frame × Bool) :=
  es.filterMap fun e => match e with
    | .issue f a => some (f, a)
    | .accept _ _ | .configure _ _ _ | .respond _ => none

/-- A command has ended with the status `st`: the response is up and the sequencer is idle (41 R138). -/
def Ended (st : Status) (s : State) : Prop :=
  s.phase = .idle ∧ s.rspValid = true ∧ s.rspStatus = st

/-- The state with the environment's next moves decided. -/
def withMoves (ms : List EnvMove) (s : State) : State :=
  { s with env := { s.env with moves := ms } }

/-- The bits of `arg` that the row of a phase reads (30 R80): the others are ignored (30 R82). -/
def argMask : Phase → Arg
  | .rstDrain | .dirIssue | .dirDrain => 0x0001
  | .thrIssue => 0x07FF
  | .pktIssue => 0x1FFF
  | .idle | .cfgWait | .rstIssue | .armIssue | .holdIssue | .holdYield | .revFlush
  | .beepIssue | .beepDrain | .beepSleep | .pktDrain => 0x0000

/-- A command with its ignored argument bits cleared (30 R82). -/
def clearIgnored : Instr → Instr
  | .reservedOp0 _ => .reservedOp0 0
  | .install pin channel _ => .install pin channel 0
  | .init wait _ => .init wait 0
  | .sendThrottle value => .sendThrottle value
  | .setReversed reversed _ => .setReversed reversed 0
  | .beep _ => .beep 0
  | .sendPacket payload telemetry block _ => .sendPacket payload telemetry block 0
  | .reservedOp7 _ => .reservedOp7 0

/-- A result with its next state changed. -/
def mapNext (f : State → State) : Result → Result
  | .next s => .next (f s)
  | .fault r => .fault r
  | .refused r => .refused r

/-- A block that holds its channel: `INSTALL` has succeeded since reset (10 R21). -/
def holdsChannel (s : State) : Bool :=
  decide (s.lifecycle = .installed ∨ s.lifecycle = .armed)

/-- 60 R214: no two installed blocks have the same channel. A duty of whoever assigns channels; one
block cannot check it (log 22). -/
def noSharedChannel (blocks : List State) : Bool :=
  decide (blocks.Pairwise fun a b =>
    holdsChannel a = true → holdsChannel b = true → a.cfgChannel ≠ b.cfgChannel)

end Sys2Proof.Machine
end

