-- ==== Sys2Proof/Certificates/Slice0/Obligations.lean ====
section
/-! DEFINITION. The statements about the model, each a Prop for the provers. -/

open Sys2Proof Sys2Proof.Machine

/-! ## Encoding -/

/-- 30 R78 to R80: no bit of a command word is dropped, in either direction. -/
def Obligations.DecodeAndEncodeAreInverse : Prop :=
  (∀ i : Instr, decode (encode i) = i) ∧ (∀ w : CmdWord, encode (decode w) = w)

/-- 30 R84: the example words, each assembled to its command, encoded and decoded, with
`P_CMD_TELEMETRY` at its default 0. -/
def Obligations.ExampleWordsDecode : Prop :=
  ∀ p : Params, p.cmdTelemetry = false →
    (assemble p (.install 18 0) = some (.install 18 0 0)
      ∧ encode (.install 18 0 0) = 0x10012 ∧ decode 0x10012 = .install 18 0 0)
    ∧ (assemble p (.init 1) = some (.init true 0)
      ∧ encode (.init true 0) = 0x20001 ∧ decode 0x20001 = .init true 0)
    ∧ (assemble p (.sendThrottle 1000) = some (.sendThrottle 1000)
      ∧ encode (.sendThrottle 1000) = 0x303E8 ∧ decode 0x303E8 = .sendThrottle 1000)
    ∧ (assemble p (.setReversed 1) = some (.setReversed true 0)
      ∧ encode (.setReversed true 0) = 0x40001 ∧ decode 0x40001 = .setReversed true 0)
    ∧ (assemble p .beep = some (.beep 0)
      ∧ encode (.beep 0) = 0x50000 ∧ decode 0x50000 = .beep 0)
    ∧ (assemble p (.sendPacket 12 1 1) = some (.sendPacket 12 true true 0)
      ∧ encode (.sendPacket 12 true true 0) = 0x6180C
      ∧ decode 0x6180C = .sendPacket 12 true true 0)
    ∧ (assemble p (.sendCmd .escInfo none none) = some (.sendPacket 6 false true 0)
      ∧ encode (.sendPacket 6 false true 0) = 0x61006
      ∧ decode 0x61006 = .sendPacket 6 false true 0)

/-- 30 R78, R79, R80: `op = W[18:16]` selects the command, and its fields are the bits of
`arg = W[15:0]` that R80 names. -/
def Obligations.CommandFieldsAreArgumentBits : Prop :=
  ∀ w : CmdWord,
    (opOf w = w.extractLsb' 16 3 ∧ argOf w = w.extractLsb' 0 16)
    ∧ (opOf w = 0 → ∃ x, decode w = .reservedOp0 x)
    ∧ (opOf w = 1 → ∃ x, decode w = .install (w.extractLsb' 0 8) (w.extractLsb' 8 3) x)
    ∧ (opOf w = 2 → ∃ x, decode w = .init (w.getLsbD 0) x)
    ∧ (opOf w = 3 → decode w = .sendThrottle (w.extractLsb' 0 16))
    ∧ (opOf w = 4 → ∃ x, decode w = .setReversed (w.getLsbD 0) x)
    ∧ (opOf w = 5 → ∃ x, decode w = .beep x)
    ∧ (opOf w = 6 → ∃ x, decode w =
        .sendPacket (w.extractLsb' 0 11) (w.getLsbD 11) (w.getLsbD 12) x)
    ∧ (opOf w = 7 → ∃ x, decode w = .reservedOp7 x)

/-- 30 R82: ignored argument bits change nothing. Two commands that differ only in them are
accepted alike, apart from what register `arg` holds; and while a command runs, the bits of `arg`
its row does not read change neither the step, nor the outputs, nor the events. -/
def Obligations.IgnoredArgumentBitsChangeNothing : Prop :=
  (∀ (i j : Instr) (s t : State), clearIgnored i = clearIgnored j → s.phase = .idle →
    exec i s = .next t → exec j s = .next { t with arg := j.arg })
  ∧ (∀ (s : State) (a : Arg), s.phase ≠ .idle → s.env.rst = false →
      a &&& argMask s.phase = s.arg &&& argMask s.phase →
      step { s with arg := a } = mapNext (fun t => { t with arg := a }) (step s)
      ∧ outputs { s with arg := a } = outputs s ∧ stepEvents { s with arg := a } = stepEvents s)

/-- 30 R83: a line whose operands fit their fields assembles to the word the table gives, with the
defaults of `SEND_CMD`. That no other line assembles is the model's choice (log 25): R83 does not say
what an operand wider than its field stands for. -/
def Obligations.AssemblerWordsHaveTheListedFields : Prop :=
  ∀ (p : Params) (a : Asm),
    ((assemble p a).isSome = a.wellFormed)
    ∧ ∀ i, assemble p a = some i →
      (encode i).toNat =
        match a with
        | .install q c => 1 * 0x10000 + c * 2 ^ 8 + q
        | .init w => 2 * 0x10000 + w
        | .sendThrottle v => 3 * 0x10000 + v
        | .setReversed r => 4 * 0x10000 + r
        | .beep => 5 * 0x10000
        | .sendPacket q t b => 6 * 0x10000 + b * 2 ^ 12 + t * 2 ^ 11 + q
        | .sendCmd n t b =>
            6 * 0x10000 + (b.getD 1) * 2 ^ 12 + (t.getD p.cmdTelemetry.toNat) * 2 ^ 11 + n.code

/-- 30 R71, R72, R73: what a payload means. The codes of the table have the names it gives, 13 to 19
are reserved, 30 to 47 are unnamed, and from 48 on a payload is a throttle. -/
def Obligations.PayloadsAreClassifiedByValue : Prop :=
  (∀ e ∈ [(0, CommandCode.motorStop), (1, .beep1), (2, .beep2), (3, .beep3), (4, .beep4),
      (5, .beep5), (6, .escInfo), (7, .spinDirection1), (8, .spinDirection2), (9, .threeDModeOff),
      (10, .threeDModeOn), (11, .settingsRequest), (12, .saveSettings),
      (20, .spinDirectionNormal), (21, .spinDirectionReversed), (22, .led0On), (23, .led1On),
      (24, .led2On), (25, .led3On), (26, .led0Off), (27, .led1Off), (28, .led2Off),
      (29, .led3Off)],
    e.2.code = e.1 ∧ payloadKind (BitVec.ofNat 11 e.1) = .command e.2)
  ∧ (∀ c : CommandCode, payloadKind (BitVec.ofNat 11 c.code) = .command c)
  ∧ ∀ q : Payload,
    (13 ≤ q.toNat ∧ q.toNat ≤ 19 → payloadKind q = .reservedUnused)
    ∧ (30 ≤ q.toNat ∧ q.toNat ≤ 47 → payloadKind q = .unnamed)
    ∧ (48 ≤ q.toNat → payloadKind q = .throttle)
    ∧ (q.toNat ≤ 12 ∨ (20 ≤ q.toNat ∧ q.toNat ≤ 29) →
        ∃ c, payloadKind q = .command c ∧ c.code = q.toNat)

/-! ## The packet encoder -/

/-- 40 R100, whole: the fold in both of its forms, its corner cases and its example. -/
def Obligations.ChecksumFoldsThreeNibbles : Prop :=
  (∀ v : BitVec 12,
    computeChecksum v = (v ^^^ v >>> 4 ^^^ v >>> 8).extractLsb' 0 4
    ∧ computeChecksum v = v.extractLsb' 0 4 ^^^ v.extractLsb' 4 4 ^^^ v.extractLsb' 8 4)
  ∧ computeChecksum 0 = 0 ∧ computeChecksum 0xFFF = 0xF
  ∧ (∀ a b : BitVec 12, computeChecksum (a ^^^ b) = computeChecksum a ^^^ computeChecksum b)
  ∧ (∀ (v : BitVec 12) (i : Nat), i < 12 →
      computeChecksum (v ^^^ 1#12 <<< i) = computeChecksum v ^^^ 1#4 <<< (i % 4))
  ∧ computeChecksum 96 = 0x6

/-- 40 R101 with the fields of 30 R70: payload, telemetry and checksum stand where R70 says, every
frame is valid, and distinct packets have distinct frames. -/
def Obligations.FrameHasPayloadTelemetryChecksum : Prop :=
  (∀ (q : Payload) (b : Bool),
    (encodeFrame q b).extractLsb' 5 11 = q
    ∧ (encodeFrame q b).getLsbD 4 = b
    ∧ (encodeFrame q b).extractLsb' 0 4 = computeChecksum ((encodeFrame q b).extractLsb' 4 12)
    ∧ (encodeFrame q b).toNat =
        (q.toNat * 2 + b.toNat) * 16 + (computeChecksum (packetBits q b)).toNat
    ∧ (packetBits q b).toNat = q.toNat * 2 + b.toNat
    ∧ validFrame (encodeFrame q b) = true)
  ∧ (∀ (q r : Payload) (b c : Bool), encodeFrame q b = encodeFrame r c → q = r ∧ b = c)
  ∧ encodeFrame 0 false = 0x0000 ∧ encodeFrame 2047 true = 0xFFFF
  ∧ encodeFrame 48 false = 0x0606

/-- 40 R103 with the layout of 30 R75: the table's two symbols, for every legal configuration, and
their words at the defaults. -/
def Obligations.LookUpTableSymbols : Prop :=
  (∀ p : Params, p.legal = true →
    (symDur0 p (symbolFor p true) = p.t1h ∧ symLvl0 p (symbolFor p true) = true
      ∧ symDur1 p (symbolFor p true) = p.t1l ∧ symLvl1 p (symbolFor p true) = false)
    ∧ (symDur0 p (symbolFor p false) = p.t0h ∧ symLvl0 p (symbolFor p false) = true
      ∧ symDur1 p (symbolFor p false) = p.t0l ∧ symLvl1 p (symbolFor p false) = false)
    ∧ (∀ b, symDur0 p (symbolFor p b) + symDur1 p (symbolFor p b) = p.ticksPerBit))
  ∧ symbolFor Params.default true = 0x0005800E ∧ symbolFor Params.default false = 0x000C8007

/-- 40 R104, whole: the train's entries, the pause's fields in every legal configuration, and that the
frame can be read back from the entries wherever the two symbols differ. -/
def Obligations.TrainHoldsFrameBitsThenPause : Prop :=
  (∀ (p : Params) (f : Frame),
    (∀ i : Fin 16, (toPulseTrain p f)[i.val]'(by omega) = symbolFor p (f.getLsbD (15 - i.val)))
    ∧ (toPulseTrain p f)[16] = symPause p
    ∧ (toPulseTrain p f).size = 17
    ∧ (p.legal = true → symDur0 p (toPulseTrain p f)[16] = p.pauseTicks
      ∧ symLvl0 p (toPulseTrain p f)[16] = false ∧ symDur1 p (toPulseTrain p f)[16] = 0
      ∧ symLvl1 p (toPulseTrain p f)[16] = false)
    ∧ (symOne p ≠ symZero p → ∀ i : Fin 16,
        ((toPulseTrain p f)[i.val]'(by omega) = symOne p ↔ f.getLsbD (15 - i.val) = true)))
  ∧ (∀ (p : Params) (f g : Frame), symOne p ≠ symZero p → toPulseTrain p f = toPulseTrain p g →
      f = g)
  ∧ symOne Params.default ≠ symZero Params.default
  ∧ symPause Params.default = 0x00000ED8
  ∧ toPulseTrain Params.default 0x0606 =
      #v[0x000C8007, 0x000C8007, 0x000C8007, 0x000C8007, 0x000C8007, 0x0005800E, 0x0005800E,
        0x000C8007, 0x000C8007, 0x000C8007, 0x000C8007, 0x000C8007, 0x000C8007, 0x0005800E,
        0x0005800E, 0x000C8007, 0x00000ED8]

/-- 40 R108, whole: round trip, single-bit error detection, the train's shape and the effect of a
flipped frame bit. Item 3 holds of any function; it stands as equality of equal arguments. -/
def Obligations.EncoderRoundTripAndErrorDetection : Prop :=
  (∀ (q : Payload) (b : Bool), decodeFrame (encodeFrame q b) = (q, b, true))
  ∧ (∀ (v : BitVec 12) (i : Nat), i < 12 →
      computeChecksum (v ^^^ 1#12 <<< i) = computeChecksum v ^^^ 1#4 <<< (i % 4)
      ∧ computeChecksum (v ^^^ 1#12 <<< i) ≠ computeChecksum v)
  ∧ (∀ v w : BitVec 12, v = w → computeChecksum v = computeChecksum w)
  ∧ (∀ f : Frame,
      (toPulseTrain Params.default f).toList.length = 17
      ∧ (∀ i : Fin 16, symDur0 Params.default ((toPulseTrain Params.default f)[i.val]'(by omega))
          + symDur1 Params.default ((toPulseTrain Params.default f)[i.val]'(by omega)) = 19)
      ∧ symDur0 Params.default (toPulseTrain Params.default f)[16] = 3800
      ∧ symDur1 Params.default (toPulseTrain Params.default f)[16] = 0)
  ∧ (∀ (f : Frame) (j : Fin 16) (i : Fin 17),
      (toPulseTrain Params.default (f ^^^ 1#16 <<< j.val))[i] ≠ (toPulseTrain Params.default f)[i]
        ↔ i.val = 15 - j.val)

/-! ## The wire -/

/-- 40 R105: what the transmitter emits from the buffer (60 R212 item 3) is the waveform `L` of the
frame: bit `i` is high for its high time and then low, the pause and all later ticks are low. -/
def Obligations.EmittedTrainIsTheFrameWaveform : Prop :=
  ∀ (p : Params) (f : Frame), p.legal = true →
    (∀ k, levelAt (bufferIntervals p (toPulseTrain p f)) k = wireLevel p f k)
    ∧ (∀ i j, i < 16 → j < p.ticksPerBit →
        levelAt (bufferIntervals p (toPulseTrain p f)) (i * p.ticksPerBit + j)
          = decide (j < (if f.getLsbD (15 - i) then p.t1h else p.t0h)))
    ∧ (∀ k, 16 * p.ticksPerBit ≤ k → levelAt (bufferIntervals p (toPulseTrain p f)) k = false)
    ∧ (∀ (s : State) (pos : Nat), s.params = p → s.pbuf = toPulseTrain p f →
        s.env.flight = some pos →
        wireNow s = wireLevel p f pos)

/-- 40 R106: a train lasts 16 bit periods and the pause, whatever the frame; 4104 protocol ticks at
the defaults. -/
def Obligations.TrainLastsSixteenBitsAndPause : Prop :=
  (∀ (p : Params) (f : Frame), p.legal = true →
    ticksToEnd (bufferIntervals p (toPulseTrain p f)) = some (16 * p.ticksPerBit + p.pauseTicks))
  ∧ (∀ f : Frame,
    ticksToEnd (bufferIntervals Params.default (toPulseTrain Params.default f)) = some 4104)

/-! ## Acceptance -/

/-- 41 R131, whole: the first matching row decides what the accept step does. (An operand of `INSTALL`
is the value written wherever it fits its register.) -/
def Obligations.AcceptStepFollowsDispatchTable : Prop :=
  ∀ (i : Instr) (s : State), s.phase = .idle →
    let rejected (st : Status) : Result :=
      .next { s with arg := i.arg, rspValid := true, rspStatus := st, phase := .idle }
    let row1 := s.lifecycle = .failed
    let row2 := i.op = 0 ∨ i.op = 7
    let row3 := i.op = 3 ∧ ¬ (s.params.thrMin ≤ i.arg.toNat ∧ i.arg.toNat ≤ s.params.thrMax)
    let row4 := i.op = 1 ∧ (s.lifecycle = .installed ∨ s.lifecycle = .armed)
    let row5 := i.op ≠ 1 ∧ s.lifecycle = .uninstalled
    (row1 → exec i s = rejected .configErr)
    ∧ (¬row1 → row2 → exec i s = rejected .invalidArg)
    ∧ (¬row1 → ¬row2 → row3 → exec i s = rejected .invalidArg)
    ∧ (¬row1 → ¬row2 → ¬row3 → row4 → exec i s = rejected .invalidArg)
    ∧ (¬row1 → ¬row2 → ¬row3 → ¬row4 → row5 → exec i s = rejected .txErr)
    ∧ (¬row1 → ¬row2 → ¬row3 → ¬row4 → ¬row5 →
        let t := { s with arg := i.arg, rspValid := false }
        match i with
        | .install pin channel _ =>
            ∃ q c, (pin.toNat < 2 ^ s.params.pinW → q = pin.toNat)
              ∧ (channel.toNat < 2 ^ s.params.chW → c = channel.toNat)
              ∧ exec i s = .next { t with cfgPin := q, cfgChannel := c, phase := .cfgWait }
        | .init _ _ => exec i s = .next { t with cnt := 0, tw := s.env.now, phase := .rstIssue }
        | .sendThrottle _ => exec i s = .next { t with tw := s.env.now, phase := .thrIssue }
        | .setReversed _ _ => exec i s = .next { t with tw := s.env.now, phase := .revFlush }
        | .beep _ => exec i s = .next { t with tw := s.env.now, phase := .beepIssue }
        | .sendPacket _ _ _ _ => exec i s = .next { t with tw := s.env.now, phase := .pktIssue }
        | .reservedOp0 _ | .reservedOp7 _ => False)

/-- 41 R130: a command presented while another runs is not accepted (the running command's row
fires: log 16; and a host that holds its port keeps the command there: log 13), and an idle step with
no command changes nothing but `rsp_valid`. -/
def Obligations.CommandsAreTakenOnlyInIdle : Prop :=
  (∀ (i : Instr) (s : State), s.phase ≠ .idle → exec i s = runPhase s)
  ∧ (∀ s : State, s.phase ≠ .idle → (outputs s).cmdReady = false ∧ accepted s = none)
  ∧ (∀ s t : State, step s = .next t → s.phase ≠ .idle → (nextMove s.env).host = .hold →
      t.env.cmd = s.env.cmd)
  ∧ (∀ s : State, s.phase = .idle → s.env.rst = false → s.env.cmd = none →
      blockStep s = .next { s with rspValid := false })
  ∧ (∀ (s : State) (w : CmdWord), s.phase = .idle → s.env.rst = false → s.env.cmd = some w →
      (outputs s).cmdReady = true ∧ accepted s = some (decode w) ∧ blockStep s = exec (decode w) s
      ∧ ∀ t, exec (decode w) s = .next t → t.arg = w.extractLsb' 0 16)

/-- 41 R145, 30 R81: the reserved operations are accepted, answer InvalidArgument in the accept
step (ConfigurationError if `FAILED`), and change nothing but `arg` and the response registers; the
word `0x00000` is one of them. -/
def Obligations.ReservedOperationsAnswerInvalidArg : Prop :=
  decode 0x00000 = .reservedOp0 0
  ∧ ∀ (x : BitVec 16) (s : State), s.phase = .idle →
    let answer := if s.lifecycle = .failed then Status.configErr else Status.invalidArg
    exec (.reservedOp0 x) s =
        .next { s with arg := x, rspValid := true, rspStatus := answer }
    ∧ exec (.reservedOp7 x) s =
        .next { s with arg := x, rspValid := true, rspStatus := answer }

/-! ## The commands: their start and their rows -/

/-- 41 R139, 10 R23: `INSTALL` from `UNINSTALLED` starts, its operands in registers of `P_PIN_W` and
`P_CH_W` bits (each as it is where it fits, some value of that width where it does not: log 26), and its
wait ends with the transmitter's verdict. -/
def Obligations.InstallConfiguresTheChannel : Prop :=
  (∀ (pin : BitVec 8) (ch : BitVec 3) (x : BitVec 5) (s : State),
    s.phase = .idle → s.lifecycle = .uninstalled →
    exec (.install pin ch x) s =
      .next { s with
        arg := x ++ ch ++ pin, cfgPin := fitted s.params.pinW pin.toNat,
        cfgChannel := fitted s.params.chW ch.toNat, phase := .cfgWait, rspValid := false })
  ∧ (∀ width value : Nat,
      (value < 2 ^ width → fitted width value = value) ∧ fitted width value < 2 ^ width)
  ∧ (∀ s : State, s.phase = .cfgWait →
      (s.env.cfgAck = true → s.env.cfgErr = false →
        runPhase s = .next { s with
          lifecycle := .installed, rspValid := true, rspStatus := .ok, phase := .idle })
      ∧ (s.env.cfgAck = true → s.env.cfgErr = true →
        runPhase s = .next { s with
          lifecycle := .failed, rspValid := true, rspStatus := .configErr, phase := .idle })
      ∧ (s.env.cfgAck = false → runPhase s = .next { s with rspValid := false }))

/-- 41 R140: `INIT` from `INSTALLED` or `ARMED` starts with the counter cleared. -/
def Obligations.InitStartsItsResetFrames : Prop :=
  ∀ (w : Bool) (x : BitVec 15) (s : State),
    s.phase = .idle → s.lifecycle = .installed ∨ s.lifecycle = .armed →
    exec (.init w x) s =
      .next { s with
        arg := x ++ BitVec.ofBool w, cnt := 0, tw := s.env.now, phase := .rstIssue,
        rspValid := false }

/-- 41 R140, R146: the rows of `INIT` outside the hold window, with the transmitter idle and the
start accepted. -/
def Obligations.InitRowsSendResetAndThrottleFrames : Prop :=
  ∀ s : State, s.env.txBusy = false →
    (s.phase = .rstIssue → s.env.flight = none → s.env.startErr = false →
      runPhase s = .next { s with
        pbuf := toPulseTrain s.params 0x0000, tw := s.env.now, phase := .rstDrain,
        rspValid := false, env := { s.env with flight := some 0 } })
    ∧ (s.phase = .rstDrain → s.cnt + 1 < s.params.resetFrames →
      runPhase s = .next { s with
        cnt := cntSucc s, tw := s.env.now, phase := .rstIssue, rspValid := false })
    ∧ (s.phase = .rstDrain → s.cnt + 1 = s.params.resetFrames → s.arg.getLsbD 0 = true →
      runPhase s = .next { s with
        cnt := cntSucc s, t0 := s.env.now, ctx := .arm, tw := s.env.now, phase := .holdIssue,
        rspValid := false })
    ∧ (s.phase = .rstDrain → s.cnt + 1 = s.params.resetFrames → s.arg.getLsbD 0 = false →
      runPhase s = .next { s with
        cnt := cntSucc s, tw := s.env.now, phase := .armIssue, rspValid := false })
    ∧ (s.phase = .armIssue → s.env.flight = none → s.env.startErr = false →
      runPhase s = .next { s with
        pbuf := toPulseTrain s.params (encodeFrame (BitVec.ofNat 11 s.params.thrMin) false),
        lifecycle := .armed, rspValid := true, rspStatus := .ok, phase := .idle,
        env := { s.env with flight := some 0 } })

/-- 41 R137, R146: the rows of the hold window, with the transmitter idle and the start accepted. -/
def Obligations.HoldWindowRows : Prop :=
  ∀ s : State,
    let window := match s.ctx with
      | .arm => s.params.armTicks
      | .rev => s.params.revHoldTicks
    (s.phase = .holdIssue → s.env.txBusy = false → window ≤ elapsed s s.t0 → s.ctx = .arm →
      runPhase s = .next { s with
        lifecycle := .armed, rspValid := true, rspStatus := .ok, phase := .idle })
    ∧ (s.phase = .holdIssue → s.env.txBusy = false → window ≤ elapsed s s.t0 → s.ctx = .rev →
      runPhase s = .next { s with
        cnt := 0, tw := s.env.now, phase := .dirIssue, rspValid := false })
    ∧ (s.phase = .holdIssue → s.env.txBusy = false → elapsed s s.t0 < window →
      s.env.flight = none → s.env.startErr = false →
      runPhase s = .next { s with
        pbuf := toPulseTrain s.params (encodeFrame (BitVec.ofNat 11 s.params.thrMin) false),
        ty := s.env.now, phase := .holdYield, rspValid := false,
        env := { s.env with flight := some 0 } })
    ∧ (s.phase = .holdYield → s.params.yieldTicks ≤ elapsed s s.ty →
      runPhase s = .next { s with tw := s.env.now, phase := .holdIssue, rspValid := false })
    ∧ (s.phase = .holdYield → elapsed s s.ty < s.params.yieldTicks →
      runPhase s = .next { s with rspValid := false })

/-- 41 R137: no hold frame is issued once the window has closed, and two hold frames stand at least
`P_YIELD_TICKS` apart. -/
def Obligations.NoHoldFrameAfterTheWindow : Prop :=
  (∀ s : State, s.phase = .holdIssue → holdWindow s.params s.ctx ≤ elapsed s s.t0 →
    issuedFrame s = none)
  ∧ (∀ s t : State, step s = .next t → s.phase = .holdYield → t.phase = .holdIssue →
      s.params.yieldTicks ≤ elapsed s s.ty)
  ∧ (∀ s t : State, step s = .next t → s.phase = .holdIssue → t.phase = .holdYield →
      issuedFrame s = some (minThrottleFrame s.params) ∧ t.ty = s.env.now
      ∧ elapsed s s.t0 < holdWindow s.params s.ctx)

/-- 41 R141: `SEND_THROTTLE` in range starts; with the transmitter idle and the start accepted its
frame, payload `v` and telemetry 0, is in flight and the command completes. -/
def Obligations.SendThrottleSendsOneFrame : Prop :=
  (∀ (v : BitVec 16) (s : State),
    s.phase = .idle → s.lifecycle = .installed ∨ s.lifecycle = .armed →
    s.params.thrMin ≤ v.toNat → v.toNat ≤ s.params.thrMax →
    exec (.sendThrottle v) s =
      .next { s with arg := v, tw := s.env.now, phase := .thrIssue, rspValid := false })
  ∧ (∀ s : State, s.phase = .thrIssue → s.env.txBusy = false → s.env.flight = none →
      s.env.startErr = false →
      runPhase s = .next { s with
        pbuf := toPulseTrain s.params (encodeFrame (s.arg.extractLsb' 0 11) false),
        rspValid := true, rspStatus := .ok, phase := .idle,
        env := { s.env with flight := some 0 } })

/-- 41 R142: `SET_REVERSED` from `INSTALLED` or `ARMED` starts with the flush of stage 1. -/
def Obligations.SetReversedStartsItsHandshake : Prop :=
  ∀ (r : Bool) (x : BitVec 15) (s : State),
    s.phase = .idle → s.lifecycle = .installed ∨ s.lifecycle = .armed →
    exec (.setReversed r x) s =
      .next { s with
        arg := x ++ BitVec.ofBool r, tw := s.env.now, phase := .revFlush, rspValid := false }

/-- 41 R142, R146: the rows of `SET_REVERSED` outside the hold window, with the transmitter idle and
the start accepted. -/
def Obligations.SetReversedRowsSendDirectionFrames : Prop :=
  ∀ s : State, s.env.txBusy = false →
    (s.phase = .revFlush →
      runPhase s = .next { s with
        t0 := s.env.now, ctx := .rev, tw := s.env.now, phase := .holdIssue, rspValid := false })
    ∧ (s.phase = .dirIssue → s.env.flight = none → s.env.startErr = false →
      runPhase s = .next { s with
        pbuf := toPulseTrain s.params (encodeFrame (BitVec.ofNat 11
          (if s.arg.getLsbD 0 then s.params.cmdDirReversed else s.params.cmdDirNormal))
          s.params.cmdTelemetry),
        tw := s.env.now, phase := .dirDrain, rspValid := false,
        env := { s.env with flight := some 0 } })
    ∧ (s.phase = .dirDrain → s.cnt + 1 < s.params.dirRepeats →
      runPhase s = .next { s with
        cnt := cntSucc s, tw := s.env.now, phase := .dirIssue, rspValid := false })
    ∧ (s.phase = .dirDrain → s.cnt + 1 = s.params.dirRepeats →
      runPhase s = .next { s with
        cnt := cntSucc s, dirRev := s.arg.getLsbD 0, rspValid := true, rspStatus := .ok,
        phase := .idle })

/-- 41 R143, R146: `BEEP` starts, sends the beep frame, waits for its end, and sleeps. -/
def Obligations.BeepSendsAndSleeps : Prop :=
  (∀ (x : BitVec 16) (s : State),
    s.phase = .idle → s.lifecycle = .installed ∨ s.lifecycle = .armed →
    exec (.beep x) s =
      .next { s with arg := x, tw := s.env.now, phase := .beepIssue, rspValid := false })
  ∧ (∀ s : State,
      (s.phase = .beepIssue → s.env.txBusy = false → s.env.flight = none →
        s.env.startErr = false →
        runPhase s = .next { s with
          pbuf := toPulseTrain s.params (encodeFrame (BitVec.ofNat 11 s.params.cmdBeep)
            s.params.cmdTelemetry),
          tw := s.env.now, phase := .beepDrain, rspValid := false,
          env := { s.env with flight := some 0 } })
      ∧ (s.phase = .beepDrain → s.env.txBusy = false →
        runPhase s = .next { s with ty := s.env.now, phase := .beepSleep, rspValid := false })
      ∧ (s.phase = .beepSleep → s.params.beepSleepTicks ≤ elapsed s s.ty →
        runPhase s = .next { s with rspValid := true, rspStatus := .ok, phase := .idle })
      ∧ (s.phase = .beepSleep → elapsed s s.ty < s.params.beepSleepTicks →
        runPhase s = .next { s with rspValid := false }))

/-- 41 R144, R146: `SEND_PACKET` starts, sends its packet, and completes at once or after the drain. -/
def Obligations.SendPacketSendsItsPacket : Prop :=
  (∀ (q : Payload) (b k : Bool) (x : BitVec 3) (s : State),
    s.phase = .idle → s.lifecycle = .installed ∨ s.lifecycle = .armed →
    exec (.sendPacket q b k x) s =
      .next { s with
        arg := x ++ BitVec.ofBool k ++ BitVec.ofBool b ++ q, tw := s.env.now, phase := .pktIssue,
        rspValid := false })
  ∧ (∀ s : State, s.env.txBusy = false →
      (s.phase = .pktIssue → s.env.flight = none → s.env.startErr = false →
        s.arg.getLsbD 12 = true →
        runPhase s = .next { s with
          pbuf := toPulseTrain s.params
            (encodeFrame (s.arg.extractLsb' 0 11) (s.arg.getLsbD 11)),
          tw := s.env.now, phase := .pktDrain, rspValid := false,
          env := { s.env with flight := some 0 } })
      ∧ (s.phase = .pktIssue → s.env.flight = none → s.env.startErr = false →
        s.arg.getLsbD 12 = false →
        runPhase s = .next { s with
          pbuf := toPulseTrain s.params
            (encodeFrame (s.arg.extractLsb' 0 11) (s.arg.getLsbD 11)),
          rspValid := true, rspStatus := .ok, phase := .idle,
          env := { s.env with flight := some 0 } })
      ∧ (s.phase = .pktDrain →
        runPhase s = .next { s with rspValid := true, rspStatus := .ok, phase := .idle }))

/-! ## Errors -/

/-- 41 R134, R138, 60 R204: a refused start, in any row that issues, leaves the new train in the
buffer, emits nothing, and ends the command with TransmissionError; `INIT` and `SET_REVERSED` fall
back to `INSTALLED`, every other command keeps `lifecycle`, and `dir_rev` is kept. -/
def Obligations.RefusedStartAbortsTheCommand : Prop :=
  ∀ (s : State) (f : Frame), issuedFrame s = some f → s.env.flight = none →
    s.env.startErr = true →
    blockStep s = .next { s with
      pbuf := toPulseTrain s.params f, rspValid := true, rspStatus := .txErr, phase := .idle,
      lifecycle :=
        if s.phase = .rstIssue ∨ s.phase = .armIssue ∨ s.phase = .holdIssue ∨ s.phase = .dirIssue
        then .installed else s.lifecycle }

/-- 41 R133: while the transmitter is busy a waiting phase aborts once a finite timeout has elapsed
and holds otherwise, for ever with `INF`; an idle transmitter wins over an elapsed timeout. -/
def Obligations.TransmitterWaitTimesOutOrHolds : Prop :=
  ∀ s : State, s.phase.waitsOnTransmitter = true →
    (s.env.txBusy = true → ∀ limit, s.params.txTimeout = some limit → limit ≤ elapsed s s.tw →
      runPhase s = .next { s with
        rspValid := true, rspStatus := .txErr, phase := .idle,
        lifecycle :=
          if s.phase = .thrIssue ∨ s.phase = .pktIssue ∨ s.phase = .pktDrain
            ∨ s.phase = .beepIssue ∨ s.phase = .beepDrain
          then s.lifecycle else .installed })
    ∧ (s.env.txBusy = true → (∀ limit, s.params.txTimeout = some limit → elapsed s s.tw < limit) →
      runPhase s = .next { s with rspValid := false })
    ∧ (s.env.txBusy = false → ∀ x : Option Nat,
      runPhase { s with params := { s.params with txTimeout := x } } =
        mapNext (fun t => { t with params := { t.params with txTimeout := x } }) (runPhase s))

/-! ## Registers and their writers -/

/-- 20 R54, 41 R134, R148: a step writes the pulse buffer exactly when it issues, all of it with the
train of the frame issued; it issues only in the phases that name an issue, with the transmitter
idle; and every frame issued is that of a packet, so it is valid. -/
def Obligations.OnlyAnIssueWritesThePulseBuffer : Prop :=
  (∀ s t : State, step s = .next t →
    t.pbuf = match issuedFrame s with
      | some f => toPulseTrain s.params f
      | none => s.pbuf)
  ∧ (∀ (s : State) (f : Frame), issuedFrame s = some f →
      s.phase ∈ [.rstIssue, .armIssue, .holdIssue, .dirIssue, .beepIssue, .thrIssue, .pktIssue]
      ∧ s.env.txBusy = false ∧ validFrame f = true ∧ ∃ q b, f = encodeFrame q b)

/-- 10 R21, 41 R139, R140, 60 R204, 70 R230: every way `lifecycle` changes. -/
def Obligations.LifecycleChangesOnlyAsListed : Prop :=
  ∀ s t : State, step s = .next t → t.lifecycle ≠ s.lifecycle →
    (s.env.rst = true ∧ t.lifecycle = .uninstalled)
    ∨ (s.phase = .cfgWait ∧ s.env.cfgAck = true ∧ s.env.cfgErr = false ∧ t.lifecycle = .installed
        ∧ Ended .ok t)
    ∨ (s.phase = .cfgWait ∧ s.env.cfgAck = true ∧ s.env.cfgErr = true ∧ t.lifecycle = .failed
        ∧ Ended .configErr t)
    ∨ ((s.phase = .armIssue ∨ (s.phase = .holdIssue ∧ s.ctx = .arm)) ∧ t.lifecycle = .armed
        ∧ Ended .ok t)
    ∨ (s.phase.ofInitOrReverse = true ∧ t.lifecycle = .installed ∧ Ended .txErr t)

/-- 60 R209, R201, 10 R21: `FAILED` ends only by reset, and until then every command is answered
with ConfigurationError in its accept step. -/
def Obligations.FailedIsStickyUntilReset : Prop :=
  (∀ s t : State, Inv s → step s = .next t → s.lifecycle = .failed → s.env.rst = false →
    t.lifecycle = .failed ∧ t.phase = .idle)
  ∧ (∀ (i : Instr) (s : State), s.phase = .idle → s.lifecycle = .failed →
      exec i s = .next { s with
        arg := i.arg, rspValid := true, rspStatus := .configErr, phase := .idle })

/-- 10 R22, R23, R27: who writes `dir_rev`, `cfg_pin`, `cfg_channel` and `arg`, and with what. The pin
and the channel are the operands of the accepted `INSTALL`, each as its register holds it: as it is
where it fits, a free value where it does not (the model's choice: log 26). -/
def Obligations.DirectionPinAndArgWriters : Prop :=
  ∀ s t : State, step s = .next t → s.env.rst = false →
    (t.dirRev ≠ s.dirRev → s.phase = .dirDrain ∧ t.dirRev = s.arg.getLsbD 0 ∧ Ended .ok t)
    ∧ ((t.cfgPin ≠ s.cfgPin ∨ t.cfgChannel ≠ s.cfgChannel) →
        ∃ pin ch x, accepted s = some (.install pin ch x) ∧ t.phase = .cfgWait
          ∧ t.cfgPin = fitted s.params.pinW pin.toNat
          ∧ t.cfgChannel = fitted s.params.chW ch.toNat)
    ∧ (∀ i, accepted s = some i → t.arg = i.arg)
    ∧ (accepted s = none → t.arg = s.arg)

/-- 10 R25, R26, R28 to R30, 41 R136, R137: the phases in which `ctx`, `cnt` and the time stamps are
written, and that a time stamp only ever takes the tick count of its step. -/
def Obligations.CounterAndTimestampWriters : Prop :=
  ∀ s t : State, step s = .next t → s.env.rst = false →
    ((t.t0 ≠ s.t0 ∨ t.ctx ≠ s.ctx) →
        (s.phase = .rstDrain ∧ t.ctx = .arm ∨ s.phase = .revFlush ∧ t.ctx = .rev)
        ∧ t.phase = .holdIssue ∧ t.t0 = s.env.now)
    ∧ (t.ty ≠ s.ty → t.ty = s.env.now ∧ (t.phase = .holdYield ∨ t.phase = .beepSleep))
    ∧ (t.tw ≠ s.tw → t.tw = s.env.now ∧ t.phase.waitsOnTransmitter = true)
    ∧ (t.cnt ≠ s.cnt →
        (t.cnt = 0 ∧ (t.phase = .rstIssue ∨ t.phase = .dirIssue))
        ∨ (t.cnt = cntSucc s ∧ (s.phase = .rstDrain ∨ s.phase = .dirDrain)))

/-- 10 R32, R35, 41 R138: the response is high exactly in the step after a command ended (a running
one reached `IDLE`, or an accepted one was rejected), and otherwise `rsp_status` keeps its value. -/
def Obligations.ResponsePulsesOncePerCommand : Prop :=
  ∀ s t : State, step s = .next t → s.env.rst = false →
    (t.rspValid = true ↔ t.phase = .idle ∧ (s.phase ≠ .idle ∨ (accepted s).isSome = true))
    ∧ (t.rspValid = false → t.rspStatus = s.rspStatus)

/-- 41 R147 item 4: a step that neither accepts nor moves on writes nothing but `rsp_valid`. -/
def Obligations.WaitingStepsWriteNothing : Prop :=
  ∀ s t : State, step s = .next t → s.env.rst = false → accepted s = none → t.phase = s.phase →
    t = { s with rspValid := false, env := t.env }

/-- 41 R146: the next-phase column of the transition table. -/
def Obligations.PhasesFollowTheTransitionTable : Prop :=
  ∀ s t : State, step s = .next t → s.env.rst = false →
    match s.phase with
    | .idle => t.phase ∈ [.idle, .cfgWait, .rstIssue, .revFlush, .beepIssue, .thrIssue, .pktIssue]
    | .cfgWait => t.phase ∈ [.cfgWait, .idle]
    | .rstIssue => t.phase ∈ [.rstIssue, .rstDrain, .idle]
    | .rstDrain => t.phase ∈ [.rstDrain, .rstIssue, .holdIssue, .armIssue, .idle]
    | .armIssue => t.phase ∈ [.armIssue, .idle]
    | .holdIssue => t.phase ∈ [.holdIssue, .holdYield, .dirIssue, .idle]
    | .holdYield => t.phase ∈ [.holdYield, .holdIssue]
    | .revFlush => t.phase ∈ [.revFlush, .holdIssue, .idle]
    | .dirIssue => t.phase ∈ [.dirIssue, .dirDrain, .idle]
    | .dirDrain => t.phase ∈ [.dirDrain, .dirIssue, .idle]
    | .beepIssue => t.phase ∈ [.beepIssue, .beepDrain, .idle]
    | .beepDrain => t.phase ∈ [.beepDrain, .beepSleep, .idle]
    | .beepSleep => t.phase ∈ [.beepSleep, .idle]
    | .thrIssue => t.phase ∈ [.thrIssue, .idle]
    | .pktIssue => t.phase ∈ [.pktIssue, .pktDrain, .idle]
    | .pktDrain => t.phase ∈ [.pktDrain, .idle]

/-- 00 R5, 10 R38, R41: the block's part of a step changes no parameter and nothing of the
environment but that an accepted start puts a train in flight. -/
def Obligations.BlockLeavesTheEnvironmentAlone : Prop :=
  (∀ s t : State, blockStep s = .next t →
    t.params = s.params
    ∧ t.env = { s.env with flight :=
        if (issuedFrame s).isSome && !s.env.startErr then some 0 else s.env.flight })
  ∧ (∀ s t : State, step s = .next t → t.params = s.params)

/-! ## Reset -/

/-- 10 R42: the reset values, in `State.reset` and after a step with `rst = 1`. -/
def Obligations.ResetValuesOfEveryRegister : Prop :=
  let isReset (s : State) : Prop :=
    s.lifecycle.code = 0 ∧ s.dirRev = false ∧ s.cfgPin = 0 ∧ s.cfgChannel = 0 ∧ s.phase.code = 0
    ∧ s.ctx.code = 0 ∧ s.cnt = 0 ∧ s.arg = 0 ∧ s.t0 = 0 ∧ s.ty = 0 ∧ s.tw = 0
    ∧ s.rspValid = false ∧ s.rspStatus.code = 0
  isReset State.reset
  ∧ ∀ s t : State, step s = .next t → s.env.rst = true → isReset t

/-- 70 R230, R231: a reset step fires no row, drives `tx_start` and `cfg_req` low, gives no
response, does not write the pulse buffer, and starts no train; a train in flight goes on by what the
transmitter emits of it and ends only with its last tick (60 R212; log 8). In every state that meets
the invariant such a step answers a next state. -/
def Obligations.ResetStepLeavesTheTransmitterAlone : Prop :=
  ∀ s : State, s.env.rst = true →
    (outputs s).txStart = false ∧ (outputs s).cfgReq = false ∧ accepted s = none
    ∧ (∀ t, step s = .next t →
        t.pbuf = s.pbuf ∧ t.rspValid = false ∧ t.params = s.params
        ∧ t.env.txConfig = s.env.txConfig
        ∧ (s.env.flight = none → t.env.flight = none)
        ∧ (Inv s → ∀ pos, s.env.flight = some pos →
            t.env.flight =
              if 16 * s.params.ticksPerBit + s.params.pauseTicks ≤ pos + (nextMove s.env).emitTicks
              then none else some (pos + (nextMove s.env).emitTicks)))
    ∧ (Inv s → ∃ t, step s = .next t)

/-! ## The agents' contracts -/

/-- 41 R132: across any advance of fewer than `2 ^ P_TICK_W` ticks, a wrap of the count included,
`elapsed` is the advance; so a gate of `n` ticks is open exactly from `n` ticks on. -/
def Obligations.ElapsedCountsAcrossTheWrap : Prop :=
  ∀ (p : Params) (t d n : Nat), t < 2 ^ p.tickW → d < 2 ^ p.tickW →
    elapsedTicks p ((t + d) % 2 ^ p.tickW) t = d
    ∧ (n ≤ elapsedTicks p ((t + d) % 2 ^ p.tickW) t ↔ n ≤ d)

/-- 60 R211 items 1 and 2: the tick count only advances, by less than half its range. -/
def Obligations.TickCountOnlyAdvances : Prop :=
  ∀ s t : State, step s = .next t →
    ∃ d, d < 2 ^ (s.params.tickW - 1) ∧ t.env.now = (s.env.now + d) % 2 ^ s.params.tickW

/-- 60 R212 items 1, 2 and 5: `tx_busy` is 1 in the next step exactly when a start was accepted in
this step or the train in flight has not ended; it has ended once all its ticks are emitted. -/
def Obligations.TransmitterIsBusyUntilTheTrainEnds : Prop :=
  ∀ s t : State, Inv s → step s = .next t →
    (s.env.txBusy = false →
      (t.env.txBusy = true ↔ (issuedFrame s).isSome = true ∧ s.env.startErr = false))
    ∧ (∀ pos, s.env.flight = some pos →
        (t.env.txBusy = true ↔
          pos + (nextMove s.env).emitTicks < 16 * s.params.ticksPerBit + s.params.pauseTicks))
    ∧ (t.env.txBusy = t.env.flight.isSome)

/-- 60 R213, 10 R37: `cfg_ack` is 1 only in a step with `cfg_req = 1` that follows a step with
`cfg_req = 1` and no answer, and a success leaves the transmitter with the pin, the channel and the
constants the block drove. -/
def Obligations.ConfigureAnswersOnlyARequest : Prop :=
  ∀ s t : State, step s = .next t →
    (t.env.cfgAck = true → cfgReq s = true ∧ cfgReq t = true ∧ s.env.cfgAck = false)
    ∧ (cfgReq s = true → s.env.cfgAck = true → s.env.cfgErr = false →
        t.env.txConfig = some
          { pin := s.cfgPin, channel := s.cfgChannel, idleLevel := false, outEnabled := true,
            carrier := false, loop := false, clkDiv := s.params.clkDiv })

/-- 10 R33, R35, R36, R37, 41 R147 item 3, 70 R230: the output ports. `tx_start` is 1 exactly in a step
without reset, with the transmitter idle, in a phase that issues, and not in a hold window that has
closed; a step in which it is 0 writes no pulse buffer and starts no train. The read port answers
nothing above entry 16, where R36 leaves the data undefined (log 11). -/
def Obligations.OutputPortsShowTheState : Prop :=
  ∀ s : State,
    ((outputs s).cmdReady = true ↔ s.phase = .idle)
    ∧ ((outputs s).busy = true ↔ s.phase ≠ .idle)
    ∧ (outputs s).stLifecycle = (match s.lifecycle with
        | .uninstalled => 0
        | .installed => 1
        | .armed => 2
        | .failed => 3)
    ∧ (outputs s).stDirRev = s.dirRev
    ∧ (outputs s).rspValid = s.rspValid
    ∧ (outputs s).rspStatus = (match s.rspStatus with
        | .ok => 0
        | .configErr => 1
        | .invalidArg => 2
        | .txErr => 3)
    ∧ ((outputs s).txStart = true ↔
        s.env.rst = false ∧ s.env.txBusy = false
        ∧ s.phase ∈ [.rstIssue, .armIssue, .holdIssue, .dirIssue, .beepIssue, .thrIssue, .pktIssue]
        ∧ (s.phase = .holdIssue → elapsed s s.t0 < holdWindow s.params s.ctx))
    ∧ (∀ t, blockStep s = .next t → (outputs s).txStart = false → t.pbuf = s.pbuf
        ∧ t.env.flight = s.env.flight)
    ∧ ((outputs s).cfgReq = true ↔ s.phase = .cfgWait ∧ s.env.rst = false)
    ∧ (outputs s).cfgPin = s.cfgPin ∧ (outputs s).cfgChannel = s.cfgChannel
    ∧ (outputs s).cfgIdleLevel = false ∧ (outputs s).cfgOutEn = true
    ∧ (outputs s).cfgCarrier = false ∧ (outputs s).cfgLoop = false
    ∧ (outputs s).cfgClkDiv = s.params.clkDiv
    ∧ (∀ r : BitVec 5, (h : r.toNat < 17) → readEntry s.pbuf r = some s.pbuf[r.toNat])
    ∧ (∀ r : BitVec 5, 17 ≤ r.toNat → readEntry s.pbuf r = none)

/-- 41 R149: the events of a step. `Accept` with the word on the port of an idle block, `Configure`
in every step with the request up (one per step is the model's choice: log 27), `Issue` with the transmitter's verdict when `tx_start` is 1, and `Respond`
while `rsp_valid` is 1 (log 21). -/
def Obligations.StepEventsAreTheObservation : Prop :=
  ∀ s : State,
    (∀ op a, .accept op a ∈ stepEvents s ↔
      s.env.rst = false ∧ s.phase = .idle
      ∧ ∃ w, s.env.cmd = some w ∧ op = w.extractLsb' 16 3 ∧ a = w.extractLsb' 0 16)
    ∧ (∀ f b, .issue f b ∈ stepEvents s ↔
        (outputs s).txStart = true ∧ issuedFrame s = some f ∧ b = !s.env.startErr)
    ∧ (∀ p c r, .configure p c r ∈ stepEvents s ↔
        (outputs s).cfgReq = true ∧ p = s.cfgPin ∧ c = s.cfgChannel
        ∧ r = if s.env.cfgAck then some s.env.cfgErr else none)
    ∧ (∀ st, .respond st ∈ stepEvents s ↔ s.rspValid = true ∧ st = s.rspStatus)

/-! ## The whole machine -/

/-- When the host presents a word to an idle block without reset, the step is `exec` of the decoded
command followed by the environment's move; in a legal configuration (41 R130, R147, 00 R6). -/
def Obligations.StepRunsTheDecodedCommand : Prop :=
  ∀ (s : State) (w : CmdWord), s.params.legal = true → s.env.rst = false → s.phase = .idle →
    s.env.cmd = some w →
    step s = match exec (decode w) s with
      | .next t => advance s t
      | .fault f => .fault f
      | .refused r => .refused r

/-- The state with a word placed for the next step runs the command of that word. -/
def Obligations.PlacedWordIsTheNextCommand : Prop :=
  ∀ (s : State) (nbits w : Nat) (i : Instr), s.params.legal = true →
    decodeTableWord nbits w = some i →
    step (s.withFetchWord nbits w) = match exec i (s.withFetchWord nbits w) with
      | .next t => advance (s.withFetchWord nbits w) t
      | .fault f => .fault f
      | .refused r => .refused r

/-- 00 R6, 93 U24: a configuration is legal exactly when every constraint of R6 holds (enough direction
repeats for the ESC is a contract of its own, not a condition of legality), and the machine refuses
exactly the illegal configurations, in every step (log 17). -/
def Obligations.OnlyIllegalConfigurationsAreRefused : Prop :=
  (∀ p : Params,
    (p.legal = true ↔
      (p.t1h + p.t1l = p.ticksPerBit ∧ p.t0h + p.t0l = p.ticksPerBit)
      ∧ (0 < p.t1h ∧ 0 < p.t0h ∧ 0 < p.t1l ∧ 0 < p.t0l)
      ∧ (p.pauseTicks = p.pauseBits * p.ticksPerBit ∧ 0 < p.pauseTicks ∧ p.pauseTicks < 2 ^ p.durW
        ∧ p.t1h < 2 ^ p.durW ∧ p.t1l < 2 ^ p.durW ∧ p.t0h < 2 ^ p.durW ∧ p.t0l < 2 ^ p.durW)
      ∧ (p.thrMin ≤ p.thrMax ∧ p.thrMax ≤ 2047)
      ∧ (p.cmdBeep ≤ 2047 ∧ p.cmdDirNormal ≤ 2047 ∧ p.cmdDirReversed ≤ 2047)
      ∧ (1 ≤ p.resetFrames ∧ 1 ≤ p.dirRepeats ∧ 1 ≤ p.yieldTicks)
      ∧ (p.armTicks < 2 ^ (p.tickW - 1) ∧ p.revHoldTicks < 2 ^ (p.tickW - 1)
        ∧ p.beepSleepTicks < 2 ^ (p.tickW - 1)
        ∧ ∀ limit, p.txTimeout = some limit → limit < 2 ^ (p.tickW - 1)))
    ∧ (p.meetsEscContract = true ↔ 6 ≤ p.dirRepeats))
  ∧ ∀ s : State,
    (s.params.legal = false → step s = .refused .illegalConfiguration)
    ∧ (∀ r, step s = .refused r → s.params.legal = false ∧ r = .illegalConfiguration)

/-- 20 R59, R50, 93 U14, U15: the machine faults only in a state whose transmitter has a train in
flight and has broken its contract: it dropped `tx_busy`, or it emits a buffer without an end. -/
def Obligations.FaultsNeedABrokenTransmitter : Prop :=
  ∀ (s : State) (f : Fault), step s = .fault f →
    s.env.flight.isSome = true
    ∧ (f = .pulseBufferOverwrite ∧ s.env.txBusy = false ∧ (issuedFrame s).isSome = true
        ∨ f = .pulseBufferReadOutOfRange ∧ ticksToEnd (bufferIntervals s.params s.pbuf) = none)

/-- The machine right after reset meets the invariant. -/
def Obligations.ResetStateMeetsTheInvariant : Prop :=
  Inv State.reset

/-- Every step keeps the invariant: legal parameters, counters and time stamps in their widths, the
lifecycle state every phase needs, exact frame counts, and a whole train behind `tx_busy`. -/
def Obligations.EveryStepKeepsTheInvariant : Prop :=
  ∀ s t : State, Inv s → step s = .next t → Inv t

/-- In a state that meets the invariant the machine neither faults nor refuses. -/
def Obligations.LawfulMachineAlwaysSteps : Prop :=
  ∀ s : State, Inv s → ∃ t, step s = .next t

/-- 20 R57 item 2, 70 R235: along every run from a state that meets the invariant, while a train is
in flight no step writes the pulse buffer or starts a train. -/
def Obligations.TrainInFlightIsNeverOverwritten : Prop :=
  ∀ (s u : State) (es : List Event), Inv s → Run s es u →
    ∀ t, step u = .next t → u.env.flight.isSome = true →
      t.pbuf = u.pbuf ∧ (outputs u).txStart = false

/-! ## Whole commands -/

/-- 41 R140: an `INIT` that ends with OK has sent exactly `P_RESET_FRAMES` accepted all-zero frames
and then only minimum-throttle frames (one if `wait = 0`), and has armed. -/
def Obligations.InitSendsAllResetFramesThenThrottle : Prop :=
  ∀ (w : Bool) (x : BitVec 15) (s s' t : State) (es : List Event),
    accepted s = some (.init w x) → step s = .next s' → s'.phase ≠ .idle →
    CommandRun s' es t → Ended .ok t →
    ∃ n, startsOf es = List.replicate s.params.resetFrames (0x0000, true)
        ++ List.replicate n (encodeFrame (BitVec.ofNat 11 s.params.thrMin) false, true)
      ∧ (w = false → n = 1) ∧ t.lifecycle = .armed ∧ t.dirRev = s.dirRev

/-- 41 R142: a `SET_REVERSED` that ends with OK has sent some minimum-throttle frames and then the
direction frame exactly `P_DIR_REPEATS` times, all accepted, and records the direction. -/
def Obligations.SetReversedSendsAllDirectionFrames : Prop :=
  ∀ (r : Bool) (x : BitVec 15) (s s' t : State) (es : List Event),
    accepted s = some (.setReversed r x) → step s = .next s' → s'.phase ≠ .idle →
    CommandRun s' es t → Ended .ok t →
    ∃ n, startsOf es =
        List.replicate n (encodeFrame (BitVec.ofNat 11 s.params.thrMin) false, true)
        ++ List.replicate s.params.dirRepeats
          (encodeFrame (BitVec.ofNat 11
            (if r then s.params.cmdDirReversed else s.params.cmdDirNormal)) s.params.cmdTelemetry,
            true)
      ∧ t.dirRev = r ∧ t.lifecycle = s.lifecycle

/-- 41 R139, R141, R143, R144: what the other commands have sent when they end with OK, and that
they leave `lifecycle` (but for `INSTALL`) and `dir_rev` as they were. `INSTALL` sends nothing, ends in
`INSTALLED`, and leaves its operands in `cfg_pin` and `cfg_channel` as these registers hold them: as
they are where they fit, a free value where they do not (the model's choice: log 26). -/
def Obligations.OtherCommandsSendTheirOneFrame : Prop :=
  ∀ (i : Instr) (s s' t : State) (es : List Event),
    accepted s = some i → step s = .next s' → s'.phase ≠ .idle → CommandRun s' es t →
    Ended .ok t →
    match i with
    | .install pin ch _ =>
        startsOf es = [] ∧ t.lifecycle = .installed ∧ t.dirRev = s.dirRev
        ∧ t.cfgPin = fitted s.params.pinW pin.toNat
        ∧ t.cfgChannel = fitted s.params.chW ch.toNat
    | .sendThrottle v =>
        startsOf es = [(encodeFrame (v.extractLsb' 0 11) false, true)]
        ∧ t.lifecycle = s.lifecycle ∧ t.dirRev = s.dirRev
    | .beep _ =>
        startsOf es =
          [(encodeFrame (BitVec.ofNat 11 s.params.cmdBeep) s.params.cmdTelemetry, true)]
        ∧ t.lifecycle = s.lifecycle ∧ t.dirRev = s.dirRev
    | .sendPacket q b _ _ =>
        startsOf es = [(encodeFrame q b, true)]
        ∧ t.lifecycle = s.lifecycle ∧ t.dirRev = s.dirRev
    | .init _ _ | .setReversed _ _ => True
    | .reservedOp0 _ | .reservedOp7 _ => False

/-- 60 R204: a refused start is the last start of its command, which ends with TransmissionError:
no further frame and no retry. -/
def Obligations.RefusedStartIsTheLastOfItsCommand : Prop :=
  ∀ (s t : State) (es : List Event), s.phase ≠ .idle → CommandRun s es t →
    ∀ f, (f, false) ∈ startsOf es →
      Ended .txErr t ∧ ∃ gs : List Frame, startsOf es = gs.map (fun g => (g, true)) ++ [(f, false)]

/-- 41 R139, R141, R143, R144: each of these commands, accepted by an idle block that may run it, starts
in its accept step and can itself run to its end with OK, under moves of the environment (log 6). A
timeout of 0 is left out: it aborts every drain (41 R133). -/
def Obligations.ShortCommandsCanComplete : Prop :=
  ∀ (i : Instr) (s : State), Inv s → accepted s = some i → s.env.flight = none →
    s.params.txTimeout ≠ some 0 → rejection s.params s.lifecycle i = none →
    (∀ w x, i ≠ .init w x) → (∀ r x, i ≠ .setReversed r x) →
    ∃ ms s' es t, step (withMoves ms s) = .next s' ∧ s'.phase ≠ .idle ∧ CommandRun s' es t
      ∧ Ended .ok t

/-- 41 R140: `INIT`, accepted by an idle block that may run it, starts in its accept step and can itself
run to its end with OK, and arms, under moves of the environment (log 6). -/
def Obligations.InitCanArm : Prop :=
  ∀ (w : Bool) (x : BitVec 15) (s : State), Inv s → accepted s = some (.init w x) →
    s.env.flight = none → s.params.txTimeout ≠ some 0 →
    s.lifecycle = .installed ∨ s.lifecycle = .armed →
    ∃ ms s' es t, step (withMoves ms s) = .next s' ∧ s'.phase ≠ .idle ∧ CommandRun s' es t
      ∧ Ended .ok t ∧ t.lifecycle = .armed

/-- 41 R142: `SET_REVERSED`, accepted by an idle block that may run it, starts in its accept step and
can itself run to its end with OK, and records the direction, under moves of the environment (log 6). -/
def Obligations.SetReversedCanComplete : Prop :=
  ∀ (r : Bool) (x : BitVec 15) (s : State), Inv s → accepted s = some (.setReversed r x) →
    s.env.flight = none → s.params.txTimeout ≠ some 0 →
    s.lifecycle = .installed ∨ s.lifecycle = .armed →
    ∃ ms s' es t, step (withMoves ms s) = .next s' ∧ s'.phase ≠ .idle ∧ CommandRun s' es t
      ∧ Ended .ok t ∧ t.dirRev = r
end

