-- ==== Sys2Proof/Laws/State.lean ====
section
/-! SUPPORT. What each named update of the state does to each field, so that no proof unfolds one. -/

namespace Sys2Proof.Machine

@[simp] theorem hold_lifecycle (s : State) : (hold s).lifecycle = s.lifecycle := rfl
@[simp] theorem hold_dirRev (s : State) : (hold s).dirRev = s.dirRev := rfl
@[simp] theorem hold_cfgPin (s : State) : (hold s).cfgPin = s.cfgPin := rfl
@[simp] theorem hold_cfgChannel (s : State) : (hold s).cfgChannel = s.cfgChannel := rfl
@[simp] theorem hold_phase (s : State) : (hold s).phase = s.phase := rfl
@[simp] theorem hold_ctx (s : State) : (hold s).ctx = s.ctx := rfl
@[simp] theorem hold_cnt (s : State) : (hold s).cnt = s.cnt := rfl
@[simp] theorem hold_arg (s : State) : (hold s).arg = s.arg := rfl
@[simp] theorem hold_t0 (s : State) : (hold s).t0 = s.t0 := rfl
@[simp] theorem hold_ty (s : State) : (hold s).ty = s.ty := rfl
@[simp] theorem hold_tw (s : State) : (hold s).tw = s.tw := rfl
@[simp] theorem hold_pbuf (s : State) : (hold s).pbuf = s.pbuf := rfl
@[simp] theorem hold_rspValid (s : State) : (hold s).rspValid = false := rfl
@[simp] theorem hold_rspStatus (s : State) : (hold s).rspStatus = s.rspStatus := rfl
@[simp] theorem hold_params (s : State) : (hold s).params = s.params := rfl
@[simp] theorem hold_env (s : State) : (hold s).env = s.env := rfl

@[simp] theorem complete_lifecycle (st : Status) (s : State) : (complete st s).lifecycle = s.lifecycle := rfl
@[simp] theorem complete_dirRev (st : Status) (s : State) : (complete st s).dirRev = s.dirRev := rfl
@[simp] theorem complete_cfgPin (st : Status) (s : State) : (complete st s).cfgPin = s.cfgPin := rfl
@[simp] theorem complete_cfgChannel (st : Status) (s : State) : (complete st s).cfgChannel = s.cfgChannel := rfl
@[simp] theorem complete_phase (st : Status) (s : State) : (complete st s).phase = .idle := rfl
@[simp] theorem complete_ctx (st : Status) (s : State) : (complete st s).ctx = s.ctx := rfl
@[simp] theorem complete_cnt (st : Status) (s : State) : (complete st s).cnt = s.cnt := rfl
@[simp] theorem complete_arg (st : Status) (s : State) : (complete st s).arg = s.arg := rfl
@[simp] theorem complete_t0 (st : Status) (s : State) : (complete st s).t0 = s.t0 := rfl
@[simp] theorem complete_ty (st : Status) (s : State) : (complete st s).ty = s.ty := rfl
@[simp] theorem complete_tw (st : Status) (s : State) : (complete st s).tw = s.tw := rfl
@[simp] theorem complete_pbuf (st : Status) (s : State) : (complete st s).pbuf = s.pbuf := rfl
@[simp] theorem complete_rspValid (st : Status) (s : State) : (complete st s).rspValid = true := rfl
@[simp] theorem complete_rspStatus (st : Status) (s : State) : (complete st s).rspStatus = st := rfl
@[simp] theorem complete_params (st : Status) (s : State) : (complete st s).params = s.params := rfl
@[simp] theorem complete_env (st : Status) (s : State) : (complete st s).env = s.env := rfl

@[simp] theorem abort_lifecycle (st : Status) (s : State) :
    (abort st s).lifecycle = (if s.phase.ofInitOrReverse then .installed else s.lifecycle) := rfl
@[simp] theorem abort_dirRev (st : Status) (s : State) : (abort st s).dirRev = s.dirRev := rfl
@[simp] theorem abort_cfgPin (st : Status) (s : State) : (abort st s).cfgPin = s.cfgPin := rfl
@[simp] theorem abort_cfgChannel (st : Status) (s : State) : (abort st s).cfgChannel = s.cfgChannel := rfl
@[simp] theorem abort_phase (st : Status) (s : State) : (abort st s).phase = .idle := rfl
@[simp] theorem abort_ctx (st : Status) (s : State) : (abort st s).ctx = s.ctx := rfl
@[simp] theorem abort_cnt (st : Status) (s : State) : (abort st s).cnt = s.cnt := rfl
@[simp] theorem abort_arg (st : Status) (s : State) : (abort st s).arg = s.arg := rfl
@[simp] theorem abort_t0 (st : Status) (s : State) : (abort st s).t0 = s.t0 := rfl
@[simp] theorem abort_ty (st : Status) (s : State) : (abort st s).ty = s.ty := rfl
@[simp] theorem abort_tw (st : Status) (s : State) : (abort st s).tw = s.tw := rfl
@[simp] theorem abort_pbuf (st : Status) (s : State) : (abort st s).pbuf = s.pbuf := rfl
@[simp] theorem abort_rspValid (st : Status) (s : State) : (abort st s).rspValid = true := rfl
@[simp] theorem abort_rspStatus (st : Status) (s : State) : (abort st s).rspStatus = st := rfl
@[simp] theorem abort_params (st : Status) (s : State) : (abort st s).params = s.params := rfl
@[simp] theorem abort_env (st : Status) (s : State) : (abort st s).env = s.env := rfl

@[simp] theorem loadTrain_lifecycle (f : Frame) (s : State) : (loadTrain f s).lifecycle = s.lifecycle := rfl
@[simp] theorem loadTrain_dirRev (f : Frame) (s : State) : (loadTrain f s).dirRev = s.dirRev := rfl
@[simp] theorem loadTrain_cfgPin (f : Frame) (s : State) : (loadTrain f s).cfgPin = s.cfgPin := rfl
@[simp] theorem loadTrain_cfgChannel (f : Frame) (s : State) : (loadTrain f s).cfgChannel = s.cfgChannel := rfl
@[simp] theorem loadTrain_phase (f : Frame) (s : State) : (loadTrain f s).phase = s.phase := rfl
@[simp] theorem loadTrain_ctx (f : Frame) (s : State) : (loadTrain f s).ctx = s.ctx := rfl
@[simp] theorem loadTrain_cnt (f : Frame) (s : State) : (loadTrain f s).cnt = s.cnt := rfl
@[simp] theorem loadTrain_arg (f : Frame) (s : State) : (loadTrain f s).arg = s.arg := rfl
@[simp] theorem loadTrain_t0 (f : Frame) (s : State) : (loadTrain f s).t0 = s.t0 := rfl
@[simp] theorem loadTrain_ty (f : Frame) (s : State) : (loadTrain f s).ty = s.ty := rfl
@[simp] theorem loadTrain_tw (f : Frame) (s : State) : (loadTrain f s).tw = s.tw := rfl
@[simp] theorem loadTrain_pbuf (f : Frame) (s : State) :
    (loadTrain f s).pbuf = (toPulseTrain s.params f) := rfl
@[simp] theorem loadTrain_rspValid (f : Frame) (s : State) : (loadTrain f s).rspValid = s.rspValid := rfl
@[simp] theorem loadTrain_rspStatus (f : Frame) (s : State) : (loadTrain f s).rspStatus = s.rspStatus := rfl
@[simp] theorem loadTrain_params (f : Frame) (s : State) : (loadTrain f s).params = s.params := rfl
@[simp] theorem loadTrain_env (f : Frame) (s : State) : (loadTrain f s).env = s.env := rfl

@[simp] theorem startFlight_lifecycle (s : State) : (startFlight s).lifecycle = s.lifecycle := rfl
@[simp] theorem startFlight_dirRev (s : State) : (startFlight s).dirRev = s.dirRev := rfl
@[simp] theorem startFlight_cfgPin (s : State) : (startFlight s).cfgPin = s.cfgPin := rfl
@[simp] theorem startFlight_cfgChannel (s : State) : (startFlight s).cfgChannel = s.cfgChannel := rfl
@[simp] theorem startFlight_phase (s : State) : (startFlight s).phase = s.phase := rfl
@[simp] theorem startFlight_ctx (s : State) : (startFlight s).ctx = s.ctx := rfl
@[simp] theorem startFlight_cnt (s : State) : (startFlight s).cnt = s.cnt := rfl
@[simp] theorem startFlight_arg (s : State) : (startFlight s).arg = s.arg := rfl
@[simp] theorem startFlight_t0 (s : State) : (startFlight s).t0 = s.t0 := rfl
@[simp] theorem startFlight_ty (s : State) : (startFlight s).ty = s.ty := rfl
@[simp] theorem startFlight_tw (s : State) : (startFlight s).tw = s.tw := rfl
@[simp] theorem startFlight_pbuf (s : State) : (startFlight s).pbuf = s.pbuf := rfl
@[simp] theorem startFlight_rspValid (s : State) : (startFlight s).rspValid = s.rspValid := rfl
@[simp] theorem startFlight_rspStatus (s : State) : (startFlight s).rspStatus = s.rspStatus := rfl
@[simp] theorem startFlight_params (s : State) : (startFlight s).params = s.params := rfl
@[simp] theorem startFlight_env (s : State) :
    (startFlight s).env = ({ s.env with flight := some 0 }) := rfl

@[simp] theorem startHold_lifecycle (c : Ctx) (s : State) : (startHold c s).lifecycle = s.lifecycle := rfl
@[simp] theorem startHold_dirRev (c : Ctx) (s : State) : (startHold c s).dirRev = s.dirRev := rfl
@[simp] theorem startHold_cfgPin (c : Ctx) (s : State) : (startHold c s).cfgPin = s.cfgPin := rfl
@[simp] theorem startHold_cfgChannel (c : Ctx) (s : State) : (startHold c s).cfgChannel = s.cfgChannel := rfl
@[simp] theorem startHold_phase (c : Ctx) (s : State) : (startHold c s).phase = .holdIssue := rfl
@[simp] theorem startHold_ctx (c : Ctx) (s : State) : (startHold c s).ctx = c := rfl
@[simp] theorem startHold_cnt (c : Ctx) (s : State) : (startHold c s).cnt = s.cnt := rfl
@[simp] theorem startHold_arg (c : Ctx) (s : State) : (startHold c s).arg = s.arg := rfl
@[simp] theorem startHold_t0 (c : Ctx) (s : State) : (startHold c s).t0 = s.env.now := rfl
@[simp] theorem startHold_ty (c : Ctx) (s : State) : (startHold c s).ty = s.ty := rfl
@[simp] theorem startHold_tw (c : Ctx) (s : State) : (startHold c s).tw = s.env.now := rfl
@[simp] theorem startHold_pbuf (c : Ctx) (s : State) : (startHold c s).pbuf = s.pbuf := rfl
@[simp] theorem startHold_rspValid (c : Ctx) (s : State) : (startHold c s).rspValid = false := rfl
@[simp] theorem startHold_rspStatus (c : Ctx) (s : State) : (startHold c s).rspStatus = s.rspStatus := rfl
@[simp] theorem startHold_params (c : Ctx) (s : State) : (startHold c s).params = s.params := rfl
@[simp] theorem startHold_env (c : Ctx) (s : State) : (startHold c s).env = s.env := rfl

@[simp] theorem resetBlock_lifecycle (s : State) : (resetBlock s).lifecycle = .uninstalled := rfl
@[simp] theorem resetBlock_dirRev (s : State) : (resetBlock s).dirRev = false := rfl
@[simp] theorem resetBlock_cfgPin (s : State) : (resetBlock s).cfgPin = 0 := rfl
@[simp] theorem resetBlock_cfgChannel (s : State) : (resetBlock s).cfgChannel = 0 := rfl
@[simp] theorem resetBlock_phase (s : State) : (resetBlock s).phase = .idle := rfl
@[simp] theorem resetBlock_ctx (s : State) : (resetBlock s).ctx = .arm := rfl
@[simp] theorem resetBlock_cnt (s : State) : (resetBlock s).cnt = 0 := rfl
@[simp] theorem resetBlock_arg (s : State) : (resetBlock s).arg = 0 := rfl
@[simp] theorem resetBlock_t0 (s : State) : (resetBlock s).t0 = 0 := rfl
@[simp] theorem resetBlock_ty (s : State) : (resetBlock s).ty = 0 := rfl
@[simp] theorem resetBlock_tw (s : State) : (resetBlock s).tw = 0 := rfl
@[simp] theorem resetBlock_pbuf (s : State) : (resetBlock s).pbuf = s.pbuf := rfl
@[simp] theorem resetBlock_rspValid (s : State) : (resetBlock s).rspValid = false := rfl
@[simp] theorem resetBlock_rspStatus (s : State) : (resetBlock s).rspStatus = .ok := rfl
@[simp] theorem resetBlock_params (s : State) : (resetBlock s).params = s.params := rfl
@[simp] theorem resetBlock_env (s : State) : (resetBlock s).env = s.env := rfl

@[simp] theorem presentWord_lifecycle (s : State) (w : CmdWord) : (presentWord s w).lifecycle = s.lifecycle := rfl
@[simp] theorem presentWord_dirRev (s : State) (w : CmdWord) : (presentWord s w).dirRev = s.dirRev := rfl
@[simp] theorem presentWord_cfgPin (s : State) (w : CmdWord) : (presentWord s w).cfgPin = s.cfgPin := rfl
@[simp] theorem presentWord_cfgChannel (s : State) (w : CmdWord) : (presentWord s w).cfgChannel = s.cfgChannel := rfl
@[simp] theorem presentWord_phase (s : State) (w : CmdWord) : (presentWord s w).phase = .idle := rfl
@[simp] theorem presentWord_ctx (s : State) (w : CmdWord) : (presentWord s w).ctx = s.ctx := rfl
@[simp] theorem presentWord_cnt (s : State) (w : CmdWord) : (presentWord s w).cnt = s.cnt := rfl
@[simp] theorem presentWord_arg (s : State) (w : CmdWord) : (presentWord s w).arg = s.arg := rfl
@[simp] theorem presentWord_t0 (s : State) (w : CmdWord) : (presentWord s w).t0 = s.t0 := rfl
@[simp] theorem presentWord_ty (s : State) (w : CmdWord) : (presentWord s w).ty = s.ty := rfl
@[simp] theorem presentWord_tw (s : State) (w : CmdWord) : (presentWord s w).tw = s.tw := rfl
@[simp] theorem presentWord_pbuf (s : State) (w : CmdWord) : (presentWord s w).pbuf = s.pbuf := rfl
@[simp] theorem presentWord_rspValid (s : State) (w : CmdWord) : (presentWord s w).rspValid = s.rspValid := rfl
@[simp] theorem presentWord_rspStatus (s : State) (w : CmdWord) : (presentWord s w).rspStatus = s.rspStatus := rfl
@[simp] theorem presentWord_params (s : State) (w : CmdWord) : (presentWord s w).params = s.params := rfl
@[simp] theorem presentWord_env (s : State) (w : CmdWord) :
    (presentWord s w).env = ({ s.env with rst := false, cmd := some w }) := rfl

@[simp] theorem withMoves_lifecycle (ms : List EnvMove) (s : State) : (withMoves ms s).lifecycle = s.lifecycle := rfl
@[simp] theorem withMoves_dirRev (ms : List EnvMove) (s : State) : (withMoves ms s).dirRev = s.dirRev := rfl
@[simp] theorem withMoves_cfgPin (ms : List EnvMove) (s : State) : (withMoves ms s).cfgPin = s.cfgPin := rfl
@[simp] theorem withMoves_cfgChannel (ms : List EnvMove) (s : State) : (withMoves ms s).cfgChannel = s.cfgChannel := rfl
@[simp] theorem withMoves_phase (ms : List EnvMove) (s : State) : (withMoves ms s).phase = s.phase := rfl
@[simp] theorem withMoves_ctx (ms : List EnvMove) (s : State) : (withMoves ms s).ctx = s.ctx := rfl
@[simp] theorem withMoves_cnt (ms : List EnvMove) (s : State) : (withMoves ms s).cnt = s.cnt := rfl
@[simp] theorem withMoves_arg (ms : List EnvMove) (s : State) : (withMoves ms s).arg = s.arg := rfl
@[simp] theorem withMoves_t0 (ms : List EnvMove) (s : State) : (withMoves ms s).t0 = s.t0 := rfl
@[simp] theorem withMoves_ty (ms : List EnvMove) (s : State) : (withMoves ms s).ty = s.ty := rfl
@[simp] theorem withMoves_tw (ms : List EnvMove) (s : State) : (withMoves ms s).tw = s.tw := rfl
@[simp] theorem withMoves_pbuf (ms : List EnvMove) (s : State) : (withMoves ms s).pbuf = s.pbuf := rfl
@[simp] theorem withMoves_rspValid (ms : List EnvMove) (s : State) : (withMoves ms s).rspValid = s.rspValid := rfl
@[simp] theorem withMoves_rspStatus (ms : List EnvMove) (s : State) : (withMoves ms s).rspStatus = s.rspStatus := rfl
@[simp] theorem withMoves_params (ms : List EnvMove) (s : State) : (withMoves ms s).params = s.params := rfl
@[simp] theorem withMoves_env (ms : List EnvMove) (s : State) :
    (withMoves ms s).env = ({ s.env with moves := ms }) := rfl

end Sys2Proof.Machine
end

