-- ==== Sys2Proof/Laws/Decode.lean ====
section
/-! SUPPORT. The bits of a command word and of the argument of each command (30 R78, R80). -/

namespace Sys2Proof

theorem encode_bit (i : Instr) (k : Nat) :
    (encode i).getLsbD k = if k < 16 then i.arg.getLsbD k else i.op.getLsbD (k - 16) := by
  show BitVec.getLsbD (w := 3 + 16) (i.op ++ i.arg) k = _
  simp only [BitVec.getLsbD_append]

/-- The argument of an encoded command is its argument. -/
theorem argOf_encode (i : Instr) : argOf (encode i) = i.arg := by
  apply BitVec.eq_of_getLsbD_eq
  intro k hk
  simp [argOf, encode_bit, hk]

/-- The operation code of an encoded command is its operation code. -/
theorem opOf_encode (i : Instr) : opOf (encode i) = i.op := by
  apply BitVec.eq_of_getLsbD_eq
  intro k hk
  have : ¬ 16 + k < 16 := by omega
  simp [opOf, encode_bit, hk]

/-- Two command words with the same operation code and argument are equal. -/
theorem cmdWord_ext {v w : CmdWord} (ho : opOf v = opOf w) (ha : argOf v = argOf w) : v = w := by
  apply BitVec.eq_of_getLsbD_eq
  intro k hk
  by_cases h : k < 16
  · simpa [argOf, h] using congrArg (fun x => x.getLsbD k) ha
  · have e : 16 + (k - 16) = k := by omega
    have hk' : k - 16 < 3 := by omega
    simpa [opOf, e, hk'] using congrArg (fun x => x.getLsbD (k - 16)) ho

theorem installArg_bit (pin : BitVec 8) (ch : BitVec 3) (x : BitVec 5) (k : Nat) :
    (Instr.install pin ch x).arg.getLsbD k =
      if k < 8 then pin.getLsbD k else if k - 8 < 3 then ch.getLsbD (k - 8)
      else x.getLsbD (k - 8 - 3) := by
  show BitVec.getLsbD (w := 5 + 3 + 8) (x ++ ch ++ pin) k = _
  simp only [BitVec.getLsbD_append]

theorem initArg_bit (w : Bool) (x : BitVec 15) (k : Nat) :
    (Instr.init w x).arg.getLsbD k =
      if k < 1 then (BitVec.ofBool w).getLsbD k else x.getLsbD (k - 1) := by
  show BitVec.getLsbD (w := 15 + 1) (x ++ BitVec.ofBool w) k = _
  simp only [BitVec.getLsbD_append]

theorem setReversedArg_bit (r : Bool) (x : BitVec 15) (k : Nat) :
    (Instr.setReversed r x).arg.getLsbD k =
      if k < 1 then (BitVec.ofBool r).getLsbD k else x.getLsbD (k - 1) :=
  initArg_bit r x k

theorem sendPacketArg_bit (q : Payload) (b c : Bool) (x : BitVec 3) (k : Nat) :
    (Instr.sendPacket q b c x).arg.getLsbD k =
      if k < 11 then q.getLsbD k
      else if k - 11 < 1 then (BitVec.ofBool b).getLsbD (k - 11)
      else if k - 11 - 1 < 1 then (BitVec.ofBool c).getLsbD (k - 11 - 1)
      else x.getLsbD (k - 11 - 1 - 1) := by
  show BitVec.getLsbD (w := 3 + 1 + 1 + 11) (x ++ BitVec.ofBool c ++ BitVec.ofBool b ++ q) k = _
  simp only [BitVec.getLsbD_append]

@[simp] theorem argPin_install (pin : BitVec 8) (ch : BitVec 3) (x : BitVec 5) :
    argPin (Instr.install pin ch x).arg = pin := by
  apply BitVec.eq_of_getLsbD_eq
  intro k hk
  simp [argPin, installArg_bit, hk]

@[simp] theorem argChannel_install (pin : BitVec 8) (ch : BitVec 3) (x : BitVec 5) :
    argChannel (Instr.install pin ch x).arg = ch := by
  apply BitVec.eq_of_getLsbD_eq
  intro k hk
  simp [argChannel, installArg_bit, hk]

@[simp] theorem argIgnored_install (pin : BitVec 8) (ch : BitVec 3) (x : BitVec 5) :
    (Instr.install pin ch x).arg.extractLsb' 11 5 = x := by
  apply BitVec.eq_of_getLsbD_eq
  intro k hk
  have h1 : ¬ 11 + k < 8 := by omega
  have h2 : ¬ 11 + k - 8 < 3 := by omega
  have h3 : 11 + k - 8 - 3 = k := by omega
  rw [BitVec.getLsbD_extractLsb', installArg_bit, if_neg h1, if_neg h2, h3]
  simp [hk]

@[simp] theorem argFlag_init (w : Bool) (x : BitVec 15) : argFlag (Instr.init w x).arg = w := by
  rw [argFlag, initArg_bit]; simp

@[simp] theorem argIgnored_init (w : Bool) (x : BitVec 15) :
    (Instr.init w x).arg.extractLsb' 1 15 = x := by
  apply BitVec.eq_of_getLsbD_eq
  intro k hk
  have h1 : ¬ 1 + k < 1 := by omega
  have h2 : 1 + k - 1 = k := by omega
  rw [BitVec.getLsbD_extractLsb', initArg_bit, if_neg h1, h2]
  simp [hk]

@[simp] theorem argFlag_setReversed (r : Bool) (x : BitVec 15) :
    argFlag (Instr.setReversed r x).arg = r :=
  argFlag_init r x

@[simp] theorem argIgnored_setReversed (r : Bool) (x : BitVec 15) :
    (Instr.setReversed r x).arg.extractLsb' 1 15 = x :=
  argIgnored_init r x

@[simp] theorem argPayload_sendPacket (q : Payload) (b c : Bool) (x : BitVec 3) :
    argPayload (Instr.sendPacket q b c x).arg = q := by
  apply BitVec.eq_of_getLsbD_eq
  intro k hk
  simp [argPayload, sendPacketArg_bit, hk]

@[simp] theorem argTelemetry_sendPacket (q : Payload) (b c : Bool) (x : BitVec 3) :
    argTelemetry (Instr.sendPacket q b c x).arg = b := by
  rw [argTelemetry, sendPacketArg_bit]; simp

@[simp] theorem argBlock_sendPacket (q : Payload) (b c : Bool) (x : BitVec 3) :
    argBlock (Instr.sendPacket q b c x).arg = c := by
  rw [argBlock, sendPacketArg_bit]; simp

@[simp] theorem argIgnored_sendPacket (q : Payload) (b c : Bool) (x : BitVec 3) :
    (Instr.sendPacket q b c x).arg.extractLsb' 13 3 = x := by
  apply BitVec.eq_of_getLsbD_eq
  intro k hk
  have h1 : ¬ 13 + k < 11 := by omega
  have h2 : ¬ 13 + k - 11 < 1 := by omega
  have h3 : ¬ 13 + k - 11 - 1 < 1 := by omega
  have h4 : 13 + k - 11 - 1 - 1 = k := by omega
  rw [BitVec.getLsbD_extractLsb', sendPacketArg_bit, if_neg h1, if_neg h2, if_neg h3, h4]
  simp [hk]

end Sys2Proof
end

