-- ==== Sys2Proof/Laws/Encoder.lean ====
section
/-! SUPPORT. The fields of a symbol word, the linearity of the checksum, and what the transmitter reads from the buffer of a train (30 R75, 40 R100, R104). -/

namespace Sys2Proof.Machine

/-- A symbol word fits its width. -/
theorem symbolWord_lt (p : Params) (d0 d1 : Nat) (l0 l1 : Bool) :
    symbolWord p d0 l0 d1 l1 < 2 ^ p.entryWidth := by
  have hm : 0 < 2 ^ p.durW := Nat.two_pow_pos _
  have h0 := Nat.mod_lt d0 hm
  have h1 := Nat.mod_lt d1 hm
  have hw : 2 ^ p.entryWidth = 4 * (2 ^ p.durW * 2 ^ p.durW) := by
    rw [Params.entryWidth, show 2 * p.durW + 2 = p.durW + p.durW + 2 by omega, Nat.pow_add,
      Nat.pow_add]
    omega
  unfold symbolWord
  rw [hw]
  generalize 2 ^ p.durW = m at *
  generalize d0 % m = a at *
  generalize d1 % m = b at *
  have hb : b + m * l1.toNat ≤ 2 * m - 1 := by cases l1 <;> simp <;> omega
  have hl : l0.toNat ≤ 1 := by cases l0 <;> simp
  calc a + m * (l0.toNat + 2 * (b + m * l1.toNat))
      ≤ a + m * (1 + 2 * (2 * m - 1)) := by gcongr
    _ < m + m * (1 + 2 * (2 * m - 1)) := by omega
    _ = m * (2 + 2 * (2 * m - 1)) := by ring
    _ = 4 * (m * m) := by rw [show 2 + 2 * (2 * m - 1) = 4 * m by omega]; ring

/-- A symbol word above its lowest field. -/
theorem symbolWord_div (p : Params) (d0 d1 : Nat) (l0 l1 : Bool) :
    symbolWord p d0 l0 d1 l1 / 2 ^ p.durW =
      l0.toNat + 2 * (d1 % 2 ^ p.durW + 2 ^ p.durW * l1.toNat) := by
  have hm : 0 < 2 ^ p.durW := Nat.two_pow_pos _
  rw [symbolWord, Nat.add_mul_div_left _ _ hm, Nat.div_eq_of_lt (Nat.mod_lt _ hm), Nat.zero_add]

/-- A symbol word above `lvl0`. -/
theorem symbolWord_div_two (p : Params) (d0 d1 : Nat) (l0 l1 : Bool) :
    symbolWord p d0 l0 d1 l1 / 2 ^ p.durW / 2 = d1 % 2 ^ p.durW + 2 ^ p.durW * l1.toNat := by
  rw [symbolWord_div, Nat.add_mul_div_left _ _ (by decide)]
  cases l0 <;> simp

/-- A duration that fits is read back from its field. -/
theorem symDur0_symbolWord {p : Params} {d0 : Nat} (d1 : Nat) (l0 l1 : Bool)
    (h : d0 < 2 ^ p.durW) : symDur0 p (symbolWord p d0 l0 d1 l1) = d0 := by
  rw [symDur0, symbolWord, Nat.add_mul_mod_self_left, Nat.mod_mod, Nat.mod_eq_of_lt h]

@[simp] theorem symLvl0_symbolWord (p : Params) (d0 d1 : Nat) (l0 l1 : Bool) :
    symLvl0 p (symbolWord p d0 l0 d1 l1) = l0 := by
  rw [symLvl0, symbolWord_div, Nat.add_mul_mod_self_left]
  cases l0 <;> rfl

theorem symDur1_symbolWord {p : Params} (d0 : Nat) {d1 : Nat} (l0 l1 : Bool)
    (h : d1 < 2 ^ p.durW) : symDur1 p (symbolWord p d0 l0 d1 l1) = d1 := by
  rw [symDur1, symbolWord_div_two, Nat.add_mul_mod_self_left, Nat.mod_mod, Nat.mod_eq_of_lt h]

@[simp] theorem symLvl1_symbolWord (p : Params) (d0 d1 : Nat) (l0 l1 : Bool) :
    symLvl1 p (symbolWord p d0 l0 d1 l1) = l1 := by
  have hm : 0 < 2 ^ p.durW := Nat.two_pow_pos _
  rw [symLvl1, symbolWord_div_two, Nat.add_mul_div_left _ _ hm, Nat.div_eq_of_lt (Nat.mod_lt _ hm)]
  cases l1 <;> rfl

/-- The checksum is linear over exclusive-or (40 R100). -/
theorem computeChecksum_xor (a b : BitVec 12) :
    computeChecksum (a ^^^ b) = computeChecksum a ^^^ computeChecksum b := by
  unfold computeChecksum
  apply BitVec.eq_of_getLsbD_eq
  intro k hk
  simp only [BitVec.getLsbD_xor, BitVec.getLsbD_extractLsb', hk, decide_true, Bool.true_and]
  generalize a.getLsbD _ = a1, a.getLsbD _ = a2, a.getLsbD _ = a3, b.getLsbD _ = b1,
    b.getLsbD _ = b2, b.getLsbD _ = b3
  revert a1 a2 a3 b1 b2 b3
  decide

theorem packetBits_bit (q : Payload) (b : Bool) (k : Nat) :
    (packetBits q b).getLsbD k =
      if k < 1 then (BitVec.ofBool b).getLsbD k else q.getLsbD (k - 1) := by
  show BitVec.getLsbD (w := 11 + 1) (q ++ BitVec.ofBool b) k = _
  simp only [BitVec.getLsbD_append]

theorem encodeFrame_bit (q : Payload) (b : Bool) (k : Nat) :
    (encodeFrame q b).getLsbD k =
      if k < 4 then (computeChecksum (packetBits q b)).getLsbD k
      else (packetBits q b).getLsbD (k - 4) := by
  show BitVec.getLsbD (w := 12 + 4) (packetBits q b ++ computeChecksum (packetBits q b)) k = _
  simp only [BitVec.getLsbD_append]

/-- What a legal configuration says of the durations (00 R6). -/
theorem legal_durations {p : Params} (h : p.legal = true) :
    p.t1h + p.t1l = p.ticksPerBit ∧ p.t0h + p.t0l = p.ticksPerBit
    ∧ 0 < p.t1h ∧ 0 < p.t0h ∧ 0 < p.t1l ∧ 0 < p.t0l ∧ 0 < p.pauseTicks
    ∧ p.pauseTicks < 2 ^ p.durW ∧ p.t1h < 2 ^ p.durW ∧ p.t1l < 2 ^ p.durW
    ∧ p.t0h < 2 ^ p.durW ∧ p.t0l < 2 ^ p.durW := by
  simp only [Params.legal, Params.bitPeriodsAgree, Params.symbolTimesPositive,
    Params.pauseConsistent, Params.durationsFit, Bool.and_eq_true, beq_iff_eq,
    decide_eq_true_eq] at h
  obtain ⟨⟨⟨⟨⟨⟨⟨h1, h2⟩, h3⟩, h4⟩, -⟩, -⟩, -⟩, -⟩ := h
  exact ⟨h1.1, h1.2, h2.1.1.1, h2.1.1.2, h2.1.2, h2.2, h3.2, h4.1.1.1.1, h4.1.1.1.2, h4.1.1.2,
    h4.1.2, h4.2⟩

/-- The two sub-intervals of a frame bit. -/
def bitIntervals (p : Params) (b : Bool) : List Interval :=
  [(if b then p.t1h else p.t0h, true), (if b then p.t1l else p.t0l, false)]

theorem symbolIntervals_symbolFor {p : Params} (h : p.legal = true) (b : Bool) :
    symbolIntervals p (symbolFor p b) = bitIntervals p b := by
  obtain ⟨-, -, -, -, -, -, -, -, h1, h2, h3, h4⟩ := legal_durations h
  cases b
  · simp [symbolIntervals, symbolFor, symZero, bitIntervals, symDur0_symbolWord _ _ _ h3,
      symDur1_symbolWord _ _ _ h4]
  · simp [symbolIntervals, symbolFor, symOne, bitIntervals, symDur0_symbolWord _ _ _ h1,
      symDur1_symbolWord _ _ _ h2]

theorem symbolIntervals_symPause {p : Params} (h : p.legal = true) :
    symbolIntervals p (symPause p) = [(p.pauseTicks, false), (0, false)] := by
  obtain ⟨-, -, -, -, -, -, -, h1, -⟩ := legal_durations h
  have h0 : (0 : Nat) < 2 ^ p.durW := Nat.two_pow_pos _
  simp [symbolIntervals, symPause, symDur0_symbolWord _ _ _ h1, symDur1_symbolWord _ _ _ h0]

/-- Every entry of a train fits its width. -/
theorem toPulseTrain_lt (p : Params) (f : Frame) (i : Fin 17) :
    (toPulseTrain p f)[i] < 2 ^ p.entryWidth := by
  have h : ∀ b, symbolFor p b < 2 ^ p.entryWidth := by
    intro b
    cases b <;> exact symbolWord_lt _ _ _ _ _
  have hp : symPause p < 2 ^ p.entryWidth := symbolWord_lt _ _ _ _ _
  fin_cases i <;> first | exact h _ | exact hp

/-- The bits of a frame in the order of emission, most significant first (20 R51). -/
def frameBits (f : Frame) : List Bool :=
  [f.getLsbD 15, f.getLsbD 14, f.getLsbD 13, f.getLsbD 12, f.getLsbD 11, f.getLsbD 10,
    f.getLsbD 9, f.getLsbD 8, f.getLsbD 7, f.getLsbD 6, f.getLsbD 5, f.getLsbD 4, f.getLsbD 3,
    f.getLsbD 2, f.getLsbD 1, f.getLsbD 0]

/-- What the transmitter reads from the buffer of a train (60 R212 item 3). -/
theorem bufferIntervals_train {p : Params} (h : p.legal = true) (f : Frame) :
    bufferIntervals p (toPulseTrain p f) =
      (frameBits f).flatMap (bitIntervals p) ++ [(p.pauseTicks, false), (0, false)] := by
  simp [bufferIntervals, toPulseTrain, frameBits, symbolIntervals_symbolFor h,
    symbolIntervals_symPause h]

/-- The ticks of a run of frame bits before a tail of intervals. -/
theorem ticksToEnd_bits {p : Params} (h : p.legal = true) (bs : List Bool) (rest : List Interval) :
    ticksToEnd (bs.flatMap (bitIntervals p) ++ rest) =
      (ticksToEnd rest).map (bs.length * p.ticksPerBit + ·) := by
  obtain ⟨h1, h2, h3, h4, h5, h6, -⟩ := legal_durations h
  induction bs with
  | nil =>
    show ticksToEnd rest = _
    cases ticksToEnd rest <;> simp
  | cons b bs ih =>
    have e : ticksToEnd ((b :: bs).flatMap (bitIntervals p) ++ rest) =
        ((ticksToEnd (bs.flatMap (bitIntervals p) ++ rest)).map
          ((if b then p.t1l else p.t0l) + ·)).map ((if b then p.t1h else p.t0h) + ·) := by
      cases b <;> simp [bitIntervals, ticksToEnd, Nat.ne_of_gt, *]
    rw [e, ih]
    cases ticksToEnd rest with
    | none => rfl
    | some t =>
      cases b <;> simp [Nat.succ_mul] <;> omega

/-- The level at a tick of a run of frame bits before a tail of intervals. -/
theorem levelAt_bits {p : Params} (h : p.legal = true) (bs : List Bool) (rest : List Interval)
    (k : Nat) :
    levelAt (bs.flatMap (bitIntervals p) ++ rest) k =
      if hk : k / p.ticksPerBit < bs.length then
        decide (k % p.ticksPerBit < (if bs[k / p.ticksPerBit] then p.t1h else p.t0h))
      else levelAt rest (k - bs.length * p.ticksPerBit) := by
  obtain ⟨h1, h2, h3, h4, h5, h6, -⟩ := legal_durations h
  have hT : 0 < p.ticksPerBit := by omega
  induction bs generalizing k with
  | nil => simp
  | cons b bs ih =>
    have e : levelAt ((b :: bs).flatMap (bitIntervals p) ++ rest) k =
        if k < p.ticksPerBit then decide (k < (if b then p.t1h else p.t0h))
        else levelAt (bs.flatMap (bitIntervals p) ++ rest) (k - p.ticksPerBit) := by
      cases b
      · have hz : ¬ p.t0h = 0 := by omega
        have hz' : ¬ p.t0l = 0 := by omega
        simp only [List.flatMap_cons, bitIntervals, List.cons_append, List.nil_append, levelAt,
          Bool.false_eq_true, if_false, hz, hz']
        split
        · have : k < p.ticksPerBit := by omega
          simp [*]
        · split
          · have : k < p.ticksPerBit := by omega
            simp [*]
          · have : ¬ k < p.ticksPerBit := by omega
            rw [if_neg this]
            congr 1
            omega
      · have hz : ¬ p.t1h = 0 := by omega
        have hz' : ¬ p.t1l = 0 := by omega
        simp only [List.flatMap_cons, bitIntervals, List.cons_append, List.nil_append, levelAt,
          if_true, hz, hz', if_false]
        split
        · have : k < p.ticksPerBit := by omega
          simp [*]
        · split
          · have : k < p.ticksPerBit := by omega
            simp [*]
          · have : ¬ k < p.ticksPerBit := by omega
            rw [if_neg this]
            congr 1
            omega
    rw [e]
    split
    · rename_i hk
      have hd : k / p.ticksPerBit = 0 := Nat.div_eq_of_lt hk
      simp [hd, Nat.mod_eq_of_lt hk]
    · rename_i hk
      have hd : k / p.ticksPerBit = (k - p.ticksPerBit) / p.ticksPerBit + 1 := by
        rw [Nat.div_eq k p.ticksPerBit, if_pos ⟨hT, by omega⟩]
      have hm : k % p.ticksPerBit = (k - p.ticksPerBit) % p.ticksPerBit := by
        rw [Nat.mod_eq_sub_mod (by omega)]
      have hs : k - (bs.length + 1) * p.ticksPerBit
          = k - p.ticksPerBit - bs.length * p.ticksPerBit := by
        rw [Nat.succ_mul]; omega
      simp only [ih, hd, hm, List.length_cons, Nat.add_lt_add_iff_right, List.getElem_cons_succ, hs]

end Sys2Proof.Machine
end

