-- ==== Sys2Proof/Laws/Ops.lean ====
section
/-! SUPPORT. What each shared operation can answer, said once: waiting, issuing, accepting, and the environment's part of a step. -/

namespace Sys2Proof.Machine

/-- A start accepted or refused: the two next states an `issue` can give (41 R134). -/
theorem issue_next {f : Frame} {rest : State → State} {s t : State}
    (h : issue f rest s = .next t) :
    s.env.flight = none
    ∧ (s.env.startErr = true ∧ t = abort .txErr (loadTrain f s)
      ∨ s.env.startErr = false ∧ t = rest (startFlight (loadTrain f s))) := by
  unfold issue at h
  split at h
  · cases h
  · rename_i hf
    refine ⟨by simpa using hf, ?_⟩
    split at h
    · exact .inl ⟨‹_›, (Host.Outcome.next.inj h).symm⟩
    · exact .inr ⟨eq_false_of_ne_true ‹_›, (Host.Outcome.next.inj h).symm⟩

/-- An `issue` answers a next state whenever no train is in flight. -/
theorem issue_isNext (f : Frame) (rest : State → State) {s : State} (h : s.env.flight = none) :
    ∃ t, issue f rest s = .next t := by
  unfold issue
  rw [h]
  split
  · contradiction
  · split <;> exact ⟨_, rfl⟩

/-- A faulting `issue` has a train in flight (20 R59). -/
theorem issue_fault {f : Frame} {rest : State → State} {s : State} {r : Fault}
    (h : issue f rest s = .fault r) :
    s.env.flight.isSome = true ∧ r = .pulseBufferOverwrite := by
  unfold issue at h
  split at h
  · exact ⟨‹_›, (Host.Outcome.fault.inj h).symm⟩
  · split at h <;> cases h

theorem issue_not_refused {f : Frame} {rest : State → State} {s : State} {r : Refusal} :
    issue f rest s ≠ .refused r := by
  unfold issue
  split
  · simp
  · split <;> simp

/-- `await_idle`: progress, abort or hold (41 R133). -/
theorem awaitIdle_eq (progress : State → Result) (s : State) :
    (s.env.txBusy = false ∧ awaitIdle progress s = progress s)
    ∨ (s.env.txBusy = true ∧ timedOut s = true ∧ awaitIdle progress s = .next (abort .txErr s))
    ∨ (s.env.txBusy = true ∧ timedOut s = false ∧ awaitIdle progress s = .next (hold s)) := by
  unfold awaitIdle
  cases s.env.txBusy <;> cases timedOut s <;> simp

theorem awaitIdle_of_idle (progress : State → Result) {s : State} (h : s.env.txBusy = false) :
    awaitIdle progress s = progress s := by
  simp [awaitIdle, h]

/-- A command accepted in `IDLE` and rejected by 41 R131. -/
theorem command_rejected {i : Instr} {start : State → State} {s : State} {st : Status}
    (hp : s.phase = .idle) (h : rejection s.params s.lifecycle i = some st) :
    command i start s = .next (complete st { s with arg := i.arg }) := by
  simp [command, hp, h]

/-- A command accepted in `IDLE` and started by 41 R131 row 6. -/
theorem command_started {i : Instr} {start : State → State} {s : State}
    (hp : s.phase = .idle) (h : rejection s.params s.lifecycle i = none) :
    command i start s = .next (start { s with arg := i.arg, rspValid := false }) := by
  simp [command, hp, h]

/-- A command presented while another runs (41 R130). -/
theorem command_busy {i : Instr} {start : State → State} {s : State} (hp : s.phase ≠ .idle) :
    command i start s = runPhase s := by
  simp [command, hp]

/-- When 41 R131 starts a command (row 6). -/
theorem rejection_eq_none {p : Params} {l : Lifecycle} {i : Instr} :
    rejection p l i = none ↔
      l ≠ .failed ∧ isReserved i = false ∧ isThrottleOutOfRange p i = false
      ∧ (isInstall i = true ↔ l = .uninstalled) := by
  unfold rejection
  cases l <;> cases isReserved i <;> cases isThrottleOutOfRange p i <;> cases isInstall i <;> simp

/-- Every meaning is the acceptance of its command. -/
theorem exec_busy (i : Instr) {s : State} (hp : s.phase ≠ .idle) : exec i s = runPhase s := by
  cases i <;> exact command_busy hp

theorem exec_rejected {i : Instr} {s : State} {st : Status} (hp : s.phase = .idle)
    (h : rejection s.params s.lifecycle i = some st) :
    exec i s = .next (complete st { s with arg := i.arg }) := by
  cases i <;> exact command_rejected hp h

/-- The end of a step: the block's registers are those it reached, the environment moves. -/
theorem advance_next {s t u : State} (h : advance s u = .next t) :
    ∃ fl, nextFlight s u (nextMove s.env) = .ok fl
      ∧ t = { u with env := nextEnv s u (nextMove s.env) fl } := by
  unfold advance at h
  split at h
  · exact ⟨_, ‹_›, (Host.Outcome.next.inj h).symm⟩
  · cases h

/-- A step that answers a next state: a legal configuration, the block's part, then the
environment's. -/
theorem step_next {s t : State} (h : step s = .next t) :
    s.params.legal = true ∧ ∃ u fl, blockStep s = .next u
      ∧ nextFlight s u (nextMove s.env) = .ok fl
      ∧ t = { u with env := nextEnv s u (nextMove s.env) fl } := by
  unfold step cycle at h
  split at h
  · refine ⟨‹_›, ?_⟩
    split at h
    · obtain ⟨fl, h1, h2⟩ := advance_next h
      exact ⟨_, fl, ‹_›, h1, h2⟩
    · cases h
    · cases h
  · cases h

/-- The block's part of a step without reset: `exec` of the command on the port, or the row. -/
theorem blockStep_of_running {s : State} (hr : s.env.rst = false) (hp : s.phase ≠ .idle) :
    blockStep s = runPhase s := by
  unfold blockStep
  rw [hr]
  cases s.env.cmd with
  | none => rfl
  | some w => exact exec_busy (decode w) hp

theorem blockStep_of_command {s : State} {w : CmdWord} (hr : s.env.rst = false)
    (hc : s.env.cmd = some w) : blockStep s = exec (decode w) s := by
  unfold blockStep
  rw [hr, hc]
  rfl

theorem blockStep_of_noCommand {s : State} (hr : s.env.rst = false)
    (hc : s.env.cmd = none) : blockStep s = runPhase s := by
  unfold blockStep
  rw [hr, hc]
  rfl

theorem blockStep_of_reset {s : State} (hr : s.env.rst = true) :
    blockStep s = .next (resetBlock s) := by
  unfold blockStep
  rw [hr]
  rfl

/-- A step with its parts known. -/
theorem step_of_parts {s u : State} {fl : Option Nat} (hl : s.params.legal = true)
    (hb : blockStep s = .next u) (hf : nextFlight s u (nextMove s.env) = .ok fl) :
    step s = .next { u with env := nextEnv s u (nextMove s.env) fl } := by
  simp [step, cycle, hl, hb, advance, hf]

/-- A number that fits is held as it is. -/
theorem fitted_of_lt {width value : Nat} (h : value < 2 ^ width) : fitted width value = value :=
  if_pos h

/-- What a register holds fits it. -/
theorem fitted_lt (width value : Nat) : fitted width value < 2 ^ width := by
  unfold fitted
  split
  · assumption
  · exact Nat.mod_lt _ (Nat.two_pow_pos _)

/-- The counter's width holds both repeat counts (10 R26). -/
theorem cntWidth_bound (p : Params) : max p.resetFrames p.dirRepeats < 2 ^ cntWidth p := by
  unfold cntWidth
  split
  · exact Nat.lt_log2_self
  · omega

/-- Below a repeat count the counter does not wrap. -/
theorem cntSucc_eq {s : State} (h : s.cnt < max s.params.resetFrames s.params.dirRepeats) :
    cntSucc s = s.cnt + 1 :=
  Nat.mod_eq_of_lt (Nat.lt_of_le_of_lt h (cntWidth_bound s.params))

end Sys2Proof.Machine
end

