-- ==== Sys2Proof/Laws/PerInstr.lean ====
section
/-! SUPPORT. A fact about every command as syntax, one lemma per constructor: its word matches the row of opcode_table.json that it stands for. -/

namespace Sys2Proof.Laws.TableMatch

/-- The `match` column of the command's row in opcode_table.json. -/
def rowMatch : Instr → Nat
  | .reservedOp0 _ => 0x00000
  | .install _ _ _ => 0x10000
  | .init _ _ => 0x20000
  | .sendThrottle _ => 0x30000
  | .setReversed _ _ => 0x40000
  | .beep _ => 0x50000
  | .sendPacket _ _ _ _ => 0x60000
  | .reservedOp7 _ => 0x70000

/-- The encoded word is the row's `match` plus the command's argument: outside the row's `mask`
(`0x70000`) stands the argument, inside it the row's fixed bits. -/
def Statement (i : Instr) : Prop :=
  (encode i).toNat = rowMatch i + i.arg.toNat

theorem of_op {i : Instr} {n : BitVec 3} {m : Nat} (hn : i.op = n) (hm : rowMatch i = m)
    (h : n.toNat * 2 ^ 16 = m) : Statement i := by
  have e : (encode i).toNat = i.op.toNat <<< 16 ||| i.arg.toNat := BitVec.toNat_append i.op i.arg
  have lt : i.arg.toNat < 2 ^ 16 := i.arg.isLt
  rw [Statement, e, ← Nat.shiftLeft_add_eq_or_of_lt lt, Nat.shiftLeft_eq, hn, h, hm]

theorem reservedOp0 (x : BitVec 16) : Statement (.reservedOp0 x) := of_op (n := 0) (m := 0x00000) rfl rfl (by decide)
theorem install (pin : BitVec 8) (ch : BitVec 3) (x : BitVec 5) :
    Statement (.install pin ch x) := of_op (n := 1) (m := 0x10000) rfl rfl (by decide)
theorem init (w : Bool) (x : BitVec 15) : Statement (.init w x) := of_op (n := 2) (m := 0x20000) rfl rfl (by decide)
theorem sendThrottle (v : BitVec 16) : Statement (.sendThrottle v) := of_op (n := 3) (m := 0x30000) rfl rfl (by decide)
theorem setReversed (r : Bool) (x : BitVec 15) : Statement (.setReversed r x) := of_op (n := 4) (m := 0x40000) rfl rfl (by decide)
theorem beep (x : BitVec 16) : Statement (.beep x) := of_op (n := 5) (m := 0x50000) rfl rfl (by decide)
theorem sendPacket (q : Payload) (b c : Bool) (x : BitVec 3) :
    Statement (.sendPacket q b c x) := of_op (n := 6) (m := 0x60000) rfl rfl (by decide)
theorem reservedOp7 (x : BitVec 16) : Statement (.reservedOp7 x) := of_op (n := 7) (m := 0x70000) rfl rfl (by decide)

end Sys2Proof.Laws.TableMatch
end

