-- ==== Sys2Proof/Laws/Table.lean ====
section
/-! SUPPORT. What the block's part of a step can do, said once: the transition table of 41 R146 as a relation, and that every next state is one of its rows. -/

namespace Sys2Proof.Machine

/-- Why a phase waits (41 R147 item 4). -/
def Waits (s : State) : Prop :=
  (s.phase = .cfgWait ∧ s.env.cfgAck = false)
  ∨ (s.phase = .holdYield ∧ yieldOver s = false)
  ∨ (s.phase = .beepSleep ∧ sleepOver s = false)
  ∨ (s.phase.waitsOnTransmitter = true ∧ s.env.txBusy = true ∧ timedOut s = false)

/-- The rows of 41 R146, with reset (70 R230) and the acceptance of a command (41 R131). -/
inductive TableRow (s : State) : State → Prop where
  | reset : s.env.rst = true → TableRow s (resetBlock s)
  | idle : s.env.rst = false → s.phase = .idle → s.env.cmd = none → TableRow s (hold s)
  | reject (i : Instr) (st : Status) : accepted s = some i →
      rejection s.params s.lifecycle i = some st →
      TableRow s (complete st { s with arg := i.arg })
  | startInstall (pin : BitVec 8) (ch : BitVec 3) (x : BitVec 5) :
      accepted s = some (.install pin ch x) → s.lifecycle = .uninstalled →
      TableRow s { s with
        arg := (Instr.install pin ch x).arg, cfgPin := fitted s.params.pinW pin.toNat,
        cfgChannel := fitted s.params.chW ch.toNat, phase := .cfgWait,
        rspValid := false }
  | startInit (w : Bool) (x : BitVec 15) : accepted s = some (.init w x) →
      s.lifecycle = .installed ∨ s.lifecycle = .armed →
      TableRow s { s with
        arg := (Instr.init w x).arg, cnt := 0, tw := s.env.now, phase := .rstIssue,
        rspValid := false }
  | startThrottle (v : BitVec 16) : accepted s = some (.sendThrottle v) →
      s.lifecycle = .installed ∨ s.lifecycle = .armed →
      s.params.thrMin ≤ v.toNat → v.toNat ≤ s.params.thrMax →
      TableRow s { s with arg := v, tw := s.env.now, phase := .thrIssue, rspValid := false }
  | startReverse (r : Bool) (x : BitVec 15) : accepted s = some (.setReversed r x) →
      s.lifecycle = .installed ∨ s.lifecycle = .armed →
      TableRow s { s with
        arg := (Instr.setReversed r x).arg, tw := s.env.now, phase := .revFlush,
        rspValid := false }
  | startBeep (x : BitVec 16) : accepted s = some (.beep x) →
      s.lifecycle = .installed ∨ s.lifecycle = .armed →
      TableRow s { s with arg := x, tw := s.env.now, phase := .beepIssue, rspValid := false }
  | startPacket (q : Payload) (b k : Bool) (x : BitVec 3) :
      accepted s = some (.sendPacket q b k x) →
      s.lifecycle = .installed ∨ s.lifecycle = .armed →
      TableRow s { s with
        arg := (Instr.sendPacket q b k x).arg, tw := s.env.now, phase := .pktIssue,
        rspValid := false }
  | wait : s.env.rst = false → s.phase ≠ .idle → Waits s → TableRow s (hold s)
  | timeout : s.env.rst = false → s.phase.waitsOnTransmitter = true → s.env.txBusy = true →
      timedOut s = true → TableRow s (abort .txErr s)
  | refused (f : Frame) : issuedFrame s = some f → s.env.flight = none →
      s.env.startErr = true → TableRow s (abort .txErr (loadTrain f s))
  | cfgOk : s.env.rst = false → s.phase = .cfgWait → s.env.cfgAck = true → s.env.cfgErr = false →
      TableRow s (complete .ok { s with lifecycle := .installed })
  | cfgFail : s.env.rst = false → s.phase = .cfgWait → s.env.cfgAck = true →
      s.env.cfgErr = true → TableRow s (complete .configErr { s with lifecycle := .failed })
  | rstSent (f : Frame) : issuedFrame s = some f → s.env.flight = none → s.env.startErr = false →
      s.phase = .rstIssue → f = resetFrame →
      TableRow s { startFlight (loadTrain f s) with
        tw := s.env.now, phase := .rstDrain, rspValid := false }
  | rstNext : s.env.rst = false → s.phase = .rstDrain → s.env.txBusy = false →
      moreResetFrames s = true →
      TableRow s { s with
        cnt := cntSucc s, tw := s.env.now, phase := .rstIssue, rspValid := false }
  | rstHold : s.env.rst = false → s.phase = .rstDrain → s.env.txBusy = false →
      moreResetFrames s = false → argFlag s.arg = true →
      TableRow s (startHold .arm { s with cnt := cntSucc s })
  | rstArm : s.env.rst = false → s.phase = .rstDrain → s.env.txBusy = false →
      moreResetFrames s = false → argFlag s.arg = false →
      TableRow s { s with
        cnt := cntSucc s, tw := s.env.now, phase := .armIssue, rspValid := false }
  | armSent (f : Frame) : issuedFrame s = some f → s.env.flight = none → s.env.startErr = false →
      s.phase = .armIssue → f = minThrottleFrame s.params →
      TableRow s (complete .ok { startFlight (loadTrain f s) with lifecycle := .armed })
  | holdArmed : s.env.rst = false → s.phase = .holdIssue → s.env.txBusy = false →
      windowOver s = true → s.ctx = .arm →
      TableRow s (complete .ok { s with lifecycle := .armed })
  | holdReverse : s.env.rst = false → s.phase = .holdIssue → s.env.txBusy = false →
      windowOver s = true → s.ctx = .rev →
      TableRow s { s with cnt := 0, tw := s.env.now, phase := .dirIssue, rspValid := false }
  | holdSent (f : Frame) : issuedFrame s = some f → s.env.flight = none →
      s.env.startErr = false → s.phase = .holdIssue → windowOver s = false →
      f = minThrottleFrame s.params →
      TableRow s { startFlight (loadTrain f s) with
        ty := s.env.now, phase := .holdYield, rspValid := false }
  | yielded : s.env.rst = false → s.phase = .holdYield → yieldOver s = true →
      TableRow s { s with tw := s.env.now, phase := .holdIssue, rspValid := false }
  | flushed : s.env.rst = false → s.phase = .revFlush → s.env.txBusy = false →
      TableRow s (startHold .rev s)
  | dirSent (f : Frame) : issuedFrame s = some f → s.env.flight = none → s.env.startErr = false →
      s.phase = .dirIssue → f = directionFrame s.params s.arg →
      TableRow s { startFlight (loadTrain f s) with
        tw := s.env.now, phase := .dirDrain, rspValid := false }
  | dirNext : s.env.rst = false → s.phase = .dirDrain → s.env.txBusy = false →
      moreDirFrames s = true →
      TableRow s { s with
        cnt := cntSucc s, tw := s.env.now, phase := .dirIssue, rspValid := false }
  | dirDone : s.env.rst = false → s.phase = .dirDrain → s.env.txBusy = false →
      moreDirFrames s = false →
      TableRow s (complete .ok { s with cnt := cntSucc s, dirRev := argFlag s.arg })
  | beepSent (f : Frame) : issuedFrame s = some f → s.env.flight = none →
      s.env.startErr = false → s.phase = .beepIssue → f = beepFrame s.params →
      TableRow s { startFlight (loadTrain f s) with
        tw := s.env.now, phase := .beepDrain, rspValid := false }
  | beepDrained : s.env.rst = false → s.phase = .beepDrain → s.env.txBusy = false →
      TableRow s { s with ty := s.env.now, phase := .beepSleep, rspValid := false }
  | beepDone : s.env.rst = false → s.phase = .beepSleep → sleepOver s = true →
      TableRow s (complete .ok s)
  | throttleSent (f : Frame) : issuedFrame s = some f → s.env.flight = none →
      s.env.startErr = false → s.phase = .thrIssue → f = throttleFrame s.arg →
      TableRow s (complete .ok (startFlight (loadTrain f s)))
  | packetSent (f : Frame) : issuedFrame s = some f → s.env.flight = none →
      s.env.startErr = false → s.phase = .pktIssue → argBlock s.arg = true →
      f = packetFrame s.arg →
      TableRow s { startFlight (loadTrain f s) with
        tw := s.env.now, phase := .pktDrain, rspValid := false }
  | packetDone (f : Frame) : issuedFrame s = some f → s.env.flight = none →
      s.env.startErr = false → s.phase = .pktIssue → argBlock s.arg = false →
      f = packetFrame s.arg →
      TableRow s (complete .ok (startFlight (loadTrain f s)))
  | packetDrained : s.env.rst = false → s.phase = .pktDrain → s.env.txBusy = false →
      TableRow s (complete .ok s)

/-- A phase that waits on the transmitter: its progress action, a timeout, or a wait (41 R133). -/
theorem tableRow_of_awaitIdle {s t : State} {progress : State → Result}
    (hr : s.env.rst = false) (hw : s.phase.waitsOnTransmitter = true)
    (h : awaitIdle progress s = .next t)
    (hp : s.env.txBusy = false → progress s = .next t → TableRow s t) : TableRow s t := by
  obtain ⟨hb, he⟩ | ⟨hb, ht, he⟩ | ⟨hb, ht, he⟩ := awaitIdle_eq progress s
  · exact hp hb (he ▸ h)
  · rw [he] at h
    cases h
    exact .timeout hr hw hb ht
  · rw [he] at h
    cases h
    exact .wait hr (by rintro hi; rw [hi] at hw; cases hw) (.inr (.inr (.inr ⟨hw, hb, ht⟩)))

/-- A row that issues: the start is refused, or the rest of the row runs (41 R134). -/
theorem tableRow_of_issue {s t : State} {f : Frame} {rest : State → State}
    (hf : issuedFrame s = some f) (h : issue f rest s = .next t)
    (hp : s.env.flight = none → s.env.startErr = false →
      t = rest (startFlight (loadTrain f s)) → TableRow s t) : TableRow s t := by
  obtain ⟨hfl, ⟨he, rfl⟩ | ⟨he, ht⟩⟩ := issue_next h
  · exact .refused f hf hfl he
  · exact hp hfl he ht

theorem runPhase_tableRow {s t : State} (hr : s.env.rst = false) (hi : s.phase ≠ .idle)
    (h : runPhase s = .next t) : TableRow s t := by
  unfold runPhase at h
  split at h <;> rename_i hph
  case h_1 => exact absurd hph hi
  case h_2 =>
    unfold rowCfgWait at h
    split at h
    · split at h
      · cases h; exact .cfgFail hr hph ‹_› ‹_›
      · cases h; exact .cfgOk hr hph ‹_› (eq_false_of_ne_true ‹_›)
    · cases h; exact .wait hr hi (.inl ⟨hph, eq_false_of_ne_true ‹_›⟩)
  case h_3 =>
    refine tableRow_of_awaitIdle hr (by rw [hph]; rfl) h fun hb h => ?_
    have hf : issuedFrame s = some resetFrame := by simp [issuedFrame, hr, hb, hph]
    exact tableRow_of_issue hf h fun hfl he ht => ht ▸ .rstSent _ hf hfl he hph rfl
  case h_4 =>
    refine tableRow_of_awaitIdle hr (by rw [hph]; rfl) h fun hb h => ?_
    split at h
    · cases h; exact .rstNext hr hph hb ‹_›
    · rename_i hm
      split at h
      · cases h; exact .rstHold hr hph hb (by simpa using hm) ‹_›
      · cases h; exact .rstArm hr hph hb (by simpa using hm) (eq_false_of_ne_true ‹_›)
  case h_5 =>
    refine tableRow_of_awaitIdle hr (by rw [hph]; rfl) h fun hb h => ?_
    have hf : issuedFrame s = some (minThrottleFrame s.params) := by
      simp [issuedFrame, hr, hb, hph]
    exact tableRow_of_issue hf h fun hfl he ht => ht ▸ .armSent _ hf hfl he hph rfl
  case h_6 =>
    refine tableRow_of_awaitIdle hr (by rw [hph]; rfl) h fun hb h => ?_
    split at h <;> rename_i hw
    · cases h
      unfold exitHold
      split <;> rename_i hc
      · exact .holdArmed hr hph hb hw hc
      · exact .holdReverse hr hph hb hw hc
    · have hw : windowOver s = false := by simpa using hw
      have hf : issuedFrame s = some (minThrottleFrame s.params) := by
        simp [issuedFrame, hr, hb, hph, hw]
      exact tableRow_of_issue hf h fun hfl he ht => ht ▸ .holdSent _ hf hfl he hph hw rfl
  case h_7 =>
    unfold rowHoldYield at h
    split at h
    · cases h; exact .yielded hr hph ‹_›
    · cases h; exact .wait hr hi (.inr (.inl ⟨hph, eq_false_of_ne_true ‹_›⟩))
  case h_8 =>
    refine tableRow_of_awaitIdle hr (by rw [hph]; rfl) h fun hb h => ?_
    cases h; exact .flushed hr hph hb
  case h_9 =>
    refine tableRow_of_awaitIdle hr (by rw [hph]; rfl) h fun hb h => ?_
    have hf : issuedFrame s = some (directionFrame s.params s.arg) := by
      simp [issuedFrame, hr, hb, hph]
    exact tableRow_of_issue hf h fun hfl he ht => ht ▸ .dirSent _ hf hfl he hph rfl
  case h_10 =>
    refine tableRow_of_awaitIdle hr (by rw [hph]; rfl) h fun hb h => ?_
    split at h
    · cases h; exact .dirNext hr hph hb ‹_›
    · cases h; exact .dirDone hr hph hb (eq_false_of_ne_true ‹_›)
  case h_11 =>
    refine tableRow_of_awaitIdle hr (by rw [hph]; rfl) h fun hb h => ?_
    have hf : issuedFrame s = some (beepFrame s.params) := by simp [issuedFrame, hr, hb, hph]
    exact tableRow_of_issue hf h fun hfl he ht => ht ▸ .beepSent _ hf hfl he hph rfl
  case h_12 =>
    refine tableRow_of_awaitIdle hr (by rw [hph]; rfl) h fun hb h => ?_
    cases h; exact .beepDrained hr hph hb
  case h_13 =>
    unfold rowBeepSleep at h
    split at h
    · cases h; exact .beepDone hr hph ‹_›
    · cases h; exact .wait hr hi (.inr (.inr (.inl ⟨hph, eq_false_of_ne_true ‹_›⟩)))
  case h_14 =>
    refine tableRow_of_awaitIdle hr (by rw [hph]; rfl) h fun hb h => ?_
    have hf : issuedFrame s = some (throttleFrame s.arg) := by simp [issuedFrame, hr, hb, hph]
    exact tableRow_of_issue hf h fun hfl he ht => ht ▸ .throttleSent _ hf hfl he hph rfl
  case h_15 =>
    refine tableRow_of_awaitIdle hr (by rw [hph]; rfl) h fun hb h => ?_
    have hf : issuedFrame s = some (packetFrame s.arg) := by simp [issuedFrame, hr, hb, hph]
    refine tableRow_of_issue hf h fun hfl he ht => ?_
    subst ht
    cases hk : argBlock s.arg
    · simpa [hk] using TableRow.packetDone _ hf hfl he hph hk rfl
    · simpa [hk] using TableRow.packetSent _ hf hfl he hph hk rfl
  case h_16 =>
    refine tableRow_of_awaitIdle hr (by rw [hph]; rfl) h fun hb h => ?_
    cases h; exact .packetDrained hr hph hb

/-- The accept step: a rejection, or the start of the command (41 R131). -/
theorem exec_tableRow {s t : State} {i : Instr} (ha : accepted s = some i)
    (hp : s.phase = .idle) (h : exec i s = .next t) : TableRow s t := by
  cases hrj : rejection s.params s.lifecycle i with
  | some st =>
    rw [exec_rejected hp hrj] at h
    cases h
    exact .reject i st ha hrj
  | none =>
    obtain ⟨hnf, hres, hthr, hins⟩ := rejection_eq_none.mp hrj
    have hrun : isInstall i = false → s.lifecycle = .installed ∨ s.lifecycle = .armed := by
      intro hn
      cases hl : s.lifecycle <;> simp_all
    cases i with
    | reservedOp0 x => cases hres
    | reservedOp7 x => cases hres
    | install pin ch x =>
      rw [show exec (.install pin ch x) s = _ from command_started hp hrj] at h
      cases h
      exact .startInstall pin ch x ha (hins.mp rfl)
    | init w x =>
      rw [show exec (.init w x) s = _ from command_started hp hrj] at h
      cases h
      exact .startInit w x ha (hrun rfl)
    | sendThrottle v =>
      rw [show exec (.sendThrottle v) s = _ from command_started hp hrj] at h
      cases h
      have hv : s.params.thrMin ≤ v.toNat ∧ v.toNat ≤ s.params.thrMax := by
        simpa [isThrottleOutOfRange, throttleInRange] using hthr
      exact .startThrottle v ha (hrun rfl) hv.1 hv.2
    | setReversed r x =>
      rw [show exec (.setReversed r x) s = _ from command_started hp hrj] at h
      cases h
      exact .startReverse r x ha (hrun rfl)
    | beep x =>
      rw [show exec (.beep x) s = _ from command_started hp hrj] at h
      cases h
      exact .startBeep x ha (hrun rfl)
    | sendPacket q b k x =>
      rw [show exec (.sendPacket q b k x) s = _ from command_started hp hrj] at h
      cases h
      exact .startPacket q b k x ha (hrun rfl)

/-- Every next state of the block's part of a step is a row of the table. -/
theorem blockStep_tableRow {s t : State} (h : blockStep s = .next t) : TableRow s t := by
  cases hr : s.env.rst
  · by_cases hp : s.phase = .idle
    · cases hc : s.env.cmd with
      | none =>
        rw [blockStep_of_noCommand hr hc] at h
        simp only [runPhase, hp] at h
        cases h
        exact .idle hr hp hc
      | some w =>
        rw [blockStep_of_command hr hc] at h
        exact exec_tableRow (by simp [accepted, hr, hp, hc]) hp h
    · rw [blockStep_of_running hr hp] at h
      exact runPhase_tableRow hr hp h
  · rw [blockStep_of_reset hr] at h
    cases h
    exact .reset hr

/-- Every step is a row of the table followed by the environment's move. -/
theorem step_tableRow {s t : State} (h : step s = .next t) :
    s.params.legal = true ∧ ∃ u fl, TableRow s u ∧ nextFlight s u (nextMove s.env) = .ok fl
      ∧ t = { u with env := nextEnv s u (nextMove s.env) fl } := by
  obtain ⟨hl, u, fl, hb, hf, ht⟩ := step_next h
  exact ⟨hl, u, fl, blockStep_tableRow hb, hf, ht⟩

/-- What an accepted command says of the step. -/
theorem accepted_eq_some {s : State} {i : Instr} (h : accepted s = some i) :
    s.env.rst = false ∧ s.phase = .idle ∧ ∃ w, s.env.cmd = some w ∧ decode w = i := by
  unfold accepted at h
  split at h
  · cases h
  · split at h
    · exact ⟨by simpa using ‹¬s.env.rst = true›, ‹_›, by simpa using h⟩
    · cases h

/-- What an issued frame says of the step. -/
theorem issuedFrame_eq_some {s : State} {f : Frame} (h : issuedFrame s = some f) :
    s.env.rst = false ∧ s.env.txBusy = false ∧ s.phase.waitsOnTransmitter = true := by
  unfold issuedFrame at h
  split at h
  · cases h
  · split at h
    · cases h
    · refine ⟨by simpa using ‹¬s.env.rst = true›, by simpa using ‹¬s.env.txBusy = true›, ?_⟩
      split at h <;> rename_i hph <;> first | (rw [hph]; rfl) | cases h

end Sys2Proof.Machine
end

