-- ==== Sys2Proof/Tests/Slice0.lean ====
section
/-! SUPPORT. The model's own tests: refusals, decoding, the spec's vectors, single steps, and for every statement with hypotheses a concrete state that meets them. Expected values are the spec's (30 R84, 95). -/

namespace Sys2Proof.Tests

open Sys2Proof Sys2Proof.Machine

/-! ## Helpers: a small concrete machine -/

/-- The defaults, with a number for the open clock divider. -/
def params : Params := { Params.default with clkDiv := 7 }

/-- The shortest legal configuration: one reset frame, one direction frame, no windows, no sleep. -/
def shortParams : Params :=
  { params with
    resetFrames := 1, dirRepeats := 1, armTicks := 0, revHoldTicks := 0, beepSleepTicks := 0,
    txTimeout := some 10 }

/-- An environment that changes nothing. -/
def quiet : EnvMove where
  rst := false
  host := .hold
  tickAdvance := 0
  emitTicks := 0
  startErr := false
  cfgAnswer := false
  cfgErr := false

/-- A move in which a train in flight ends. -/
def trainEnds : EnvMove := { quiet with emitTicks := 5000 }

/-- A block in a phase, its environment silent, the tick count 7. -/
def blockAt (p : Params) (l : Lifecycle) (ph : Phase) : State where
  lifecycle := l
  dirRev := false
  cfgPin := 0
  cfgChannel := 0
  phase := ph
  ctx := .arm
  cnt := 0
  arg := 0
  t0 := 0
  ty := 0
  tw := 0
  pbuf := Vector.replicate 17 0
  rspValid := false
  rspStatus := .ok
  params := p
  env :=
    { rst := false, cmd := none, txBusy := false, startErr := false, cfgAck := false,
      cfgErr := false, now := 7, flight := none, txConfig := none, moves := [], freeIx := 0 }

/-- A state with one decided move of the environment. -/
def quietly (s : State) : State := withMoves [quiet] s

/-- A state with a word on the command port. -/
def offered (w : CmdWord) (s : State) : State := { s with env := { s.env with cmd := some w } }

/-- A state whose transmitter emits the train of a frame, of which it has emitted `pos` ticks. -/
def emitting (f : Frame) (pos : Nat) (s : State) : State :=
  { s with
    pbuf := toPulseTrain s.params f,
    env := { s.env with txBusy := true, flight := some pos } }

/-- A state whose transmitter refuses a start in this step. -/
def refusing (s : State) : State := { s with env := { s.env with startErr := true } }

/-- The next state of a result, if it is one. -/
def nextOf : Result → Option State
  | .next s => some s
  | .fault _ => none
  | .refused _ => none

/-- The state after one step; the state itself where the step stops. -/
def after (s : State) : State := (nextOf (step s)).getD s

theorem step_after {s : State} (h : (nextOf (step s)).isSome = true) : step s = .next (after s) := by
  unfold after
  cases hs : step s with
  | next t => rfl
  | fault f => rw [hs] at h; cases h
  | refused r => rw [hs] at h; cases h

/-- The rest of a command, run for at most `n` steps. -/
def finish : Nat → State → Option (List Event × State)
  | 0, _ => none
  | n + 1, s =>
    if s.phase = .idle then some ([], s)
    else match nextOf (step s) with
      | some t => (finish n t).map fun r => (stepEvents s ++ r.1, r.2)
      | none => none

theorem finish_commandRun {n : Nat} {s t : State} {es : List Event}
    (h : finish n s = some (es, t)) : CommandRun s es t := by
  induction n generalizing s es with
  | zero => cases h
  | succ n ih =>
    unfold finish at h
    split at h
    · cases h; exact .done ‹_›
    · split at h
      · rename_i u hu
        obtain ⟨⟨es', t'⟩, hr, he⟩ := Option.map_eq_some_iff.mp h
        cases he
        refine .more ‹_› ?_ (ih hr)
        cases hs : step s with
        | next v => rw [hs] at hu; cases hu; rfl
        | fault f => rw [hs] at hu; cases hu
        | refused r => rw [hs] at hu; cases hu
      · cases h

/-- The status with which a word is answered in its accept step, `none` where it starts. -/
def answer (l : Lifecycle) (w : CmdWord) : Option Status :=
  rejection params l (decode w)

/-! ## Well-formedness: one ill-formed term for each check -/

theorem test_params_legal : params.legal = true ∧ shortParams.legal = true := by decide

theorem test_refuses_bit_period : ({ params with t1h := 13 } : Params).bitPeriodsAgree = false
    ∧ ({ params with t1h := 13 } : Params).legal = false := by decide

theorem test_refuses_zero_symbol_time :
    ({ params with t1h := 19, t1l := 0 } : Params).symbolTimesPositive = false
    ∧ ({ params with t1h := 19, t1l := 0 } : Params).legal = false := by decide

theorem test_refuses_pause : ({ params with pauseTicks := 3801 } : Params).pauseConsistent = false
    ∧ ({ params with pauseTicks := 3801 } : Params).legal = false := by decide

theorem test_refuses_long_duration :
    ({ params with pauseBits := 1725, pauseTicks := 32775 } : Params).durationsFit = false
    ∧ ({ params with pauseBits := 1725, pauseTicks := 32775 } : Params).legal = false := by decide

theorem test_refuses_throttle_bounds :
    ({ params with thrMax := 2048 } : Params).throttleBoundsOrdered = false
    ∧ ({ params with thrMax := 2048 } : Params).legal = false := by decide

theorem test_refuses_command_code : ({ params with cmdBeep := 2048 } : Params).commandCodesFit = false
    ∧ ({ params with cmdBeep := 2048 } : Params).legal = false := by decide

theorem test_refuses_zero_count : ({ params with resetFrames := 0 } : Params).countsPositive = false
    ∧ ({ params with resetFrames := 0 } : Params).legal = false := by decide

theorem test_refuses_long_window :
    ({ params with armTicks := 2147483648 } : Params).windowsFit = false
    ∧ ({ params with armTicks := 2147483648 } : Params).legal = false := by decide

theorem test_refuses_long_timeout :
    ({ params with txTimeout := some 2147483648 } : Params).windowsFit = false := by decide

theorem test_refuses_narrow_duration_field :
    ({ params with durW := 11 } : Params).durationsFit = false
    ∧ ({ params with durW := 11 } : Params).legal = false := by decide

/-- 00 R5: the interface widths are parameters; R6 bounds none of them but through the durations. -/
theorem test_takes_other_widths :
    ({ params with durW := 16, pinW := 6, chW := 2, tickW := 16 } : Params).legal = true
    ∧ ({ shortParams with tickW := 0, txTimeout := none } : Params).legal = true := by decide

theorem test_few_repeats_break_the_esc_contract_only :
    ({ params with dirRepeats := 5 } : Params).meetsEscContract = false
    ∧ ({ params with dirRepeats := 5 } : Params).legal = true := by decide

theorem test_refuses_ill_formed_lines :
    assemble params (.install 256 0) = none ∧ assemble params (.install 0 8) = none
    ∧ assemble params (.init 2) = none ∧ assemble params (.sendThrottle 65536) = none
    ∧ assemble params (.setReversed 2) = none ∧ assemble params (.sendPacket 2048 0 0) = none
    ∧ assemble params (.sendPacket 0 2 0) = none ∧ assemble params (.sendPacket 0 0 2) = none
    ∧ assemble params (.sendCmd .beep1 (some 2) none) = none
    ∧ assemble params (.sendCmd .beep1 none (some 2)) = none := by decide

theorem test_refuses_twenty_bits :
    decodeTableWord 24 0x80000 = none ∧ decodeTableWord 24 0x7FFFF = some (.reservedOp7 0xFFFF) := by
  decide

/-! ## Decoding: words written out from 30 R78 to R84 and the table of 95 section 2.2 -/

theorem test_decode_reserved : decode 0b0000000000000000000 = .reservedOp0 0
    ∧ decode 0b1111010101111001101 = .reservedOp7 0xABCD := by decide

theorem test_decode_install : decode 0b0010000000000010010 = .install 18 0 0
    ∧ decode 0x10305 = .install 5 3 0 ∧ decode 0x10407 = .install 7 4 0 := by decide

theorem test_decode_init : decode 0b0100000000000000001 = .init true 0
    ∧ decode 0x20000 = .init false 0 ∧ decode 0x20003 = .init true 1 := by decide

theorem test_decode_send_throttle : decode 0b0110000001111101000 = .sendThrottle 1000
    ∧ decode 0x3FFFF = .sendThrottle 65535 := by decide

theorem test_decode_set_reversed : decode 0b1000000000000000001 = .setReversed true 0
    ∧ decode 0x40000 = .setReversed false 0 := by decide

theorem test_decode_beep : decode 0b1010000000000000000 = .beep 0
    ∧ decode 0x5FFFF = .beep 0xFFFF := by decide

theorem test_decode_send_packet : decode 0b1100001100000001100 = .sendPacket 12 true true 0
    ∧ decode 0x6E00C = .sendPacket 12 false false 7
    ∧ decode 0x61000 = .sendPacket 0 false true 0 := by decide

theorem test_assemble_send_cmd :
    (assemble params (.sendCmd .spinDirectionReversed none none)).map encode = some 0x61015 := by
  decide

theorem test_command_codes : payloadKind 12 = .command .saveSettings
    ∧ payloadKind 13 = .reservedUnused ∧ payloadKind 20 = .command .spinDirectionNormal
    ∧ payloadKind 30 = .unnamed ∧ payloadKind 47 = .unnamed ∧ payloadKind 48 = .throttle := by decide

/-! ## The encoder and the wire: 95 sections 1 and 2.1 -/

theorem test_checksum_flips : computeChecksum 0x060 = 0x6 ∧ computeChecksum 0x068 = 0xE
    ∧ computeChecksum 0x160 = 0x7 ∧ computeChecksum 0x460 = 0x2 := by decide

theorem test_frames : encodeFrame 48 false = 0x0606 ∧ encodeFrame 1000 false = 0x7D0A
    ∧ encodeFrame 12 true = 0x0198 ∧ encodeFrame 21 false = 0x02A8
    ∧ encodeFrame 2047 false = 0xFFEE ∧ encodeFrame 2000 true = 0xFA14 := by decide

theorem test_decode_frame : decodeFrame 0x0198 = (12, true, true)
    ∧ decodeFrame 0x0199 = (12, true, false) := by decide

theorem test_symbol_words : symOne params = 0x0005800E ∧ symZero params = 0x000C8007
    ∧ symPause params = 0x00000ED8 := by decide

/-- 30 R75 with 16-bit durations: `lvl1` bit 33, `dur1` bits 32 to 17, `lvl0` bit 16, `dur0` below. -/
theorem test_wide_symbol_word :
    symOne { params with durW := 16 } = 5 * 2 ^ 17 + 2 ^ 16 + 14 := by decide

theorem test_train : (toPulseTrain params 0x02A8).toList =
    [0x000C8007, 0x000C8007, 0x000C8007, 0x000C8007, 0x000C8007, 0x000C8007, 0x0005800E, 0x000C8007,
      0x0005800E, 0x000C8007, 0x0005800E, 0x000C8007, 0x0005800E, 0x000C8007, 0x000C8007, 0x000C8007,
      0x00000ED8] := by decide

theorem test_wire_samples :
    ([0, 6, 7, 18, 95, 108, 109, 113, 114, 303, 304, 4103].map fun k =>
      levelAt (bufferIntervals params (toPulseTrain params 0x0606)) k) =
      [true, true, false, false, true, true, false, false, true, false, false, false] := by decide

theorem test_train_length :
    ticksToEnd (bufferIntervals params (toPulseTrain params 0x0606)) = some 4104 := by decide

/-! ## Conditions: 95 sections 2.3 and 2.4 -/

theorem test_elapsed :
    elapsedTicks params 0x5 0x5 = 0 ∧ elapsedTicks params 0xCC 0x5 = 199
    ∧ elapsedTicks params 0xCD 0x5 = 200 ∧ elapsedTicks params 0xF 0xFFFFFFF0 = 31
    ∧ elapsedTicks params 0xD2 0xFFFFFF9A = 312
    ∧ elapsedTicks params 0x7FFFFFFF 0x80000000 = 0xFFFFFFFF := by decide

theorem test_counter_width : cntWidth params = 6
    ∧ cntWidth { params with resetFrames := 64 } = 7 := by decide

theorem test_dispatch_uninstalled :
    [0x00000, 0x70000, 0x10012, 0x20000, 0x3002F, 0x303E8, 0x3FFFF, 0x40001, 0x50000, 0x6180C].map
      (answer .uninstalled) =
      [some .invalidArg, some .invalidArg, none, some .txErr, some .invalidArg, some .txErr,
        some .invalidArg, some .txErr, some .txErr, some .txErr] := by decide

theorem test_dispatch_armed :
    [0x00000, 0x70000, 0x10012, 0x20000, 0x3002F, 0x303E8, 0x3FFFF, 0x40001, 0x50000, 0x6180C].map
      (answer .armed) =
      [some .invalidArg, some .invalidArg, some .invalidArg, none, some .invalidArg, none,
        some .invalidArg, none, none, none] := by decide

theorem test_dispatch_failed :
    [0x00000, 0x10012, 0x20000, 0x3002F, 0x50000].map (answer .failed) =
      [some .configErr, some .configErr, some .configErr, some .configErr, some .configErr] := by
  decide

/-! ## Single steps: at most two per command (95 section 2.5) -/

theorem test_reserved_op_answers :
    let t := after (quietly (offered 0x7ABCD (blockAt params .armed .idle)))
    t.rspValid = true ∧ t.rspStatus = .invalidArg ∧ t.arg = 0xABCD ∧ t.lifecycle = .armed := by
  decide

theorem test_install_starts :
    let narrow : Params := { params with pinW := 5, chW := 1 }
    let t := after (quietly (offered 0x10305 (blockAt params .uninstalled .idle)))
    let u := after (quietly (offered 0x10112 (blockAt narrow .uninstalled .idle)))
    (t.phase = .cfgWait ∧ t.cfgPin = 5 ∧ t.cfgChannel = 3)
    ∧ u.phase = .cfgWait ∧ u.cfgPin = 18 ∧ u.cfgChannel = 1 := by decide

theorem test_install_fails :
    let s := blockAt params .uninstalled .cfgWait
    let t := after (quietly { s with env := { s.env with cfgAck := true, cfgErr := true } })
    t.lifecycle = .failed ∧ t.rspStatus = .configErr ∧ t.phase = .idle := by decide

theorem test_init_sends_reset_frame :
    let t := after (quietly (blockAt params .installed .rstIssue))
    t.phase = .rstDrain ∧ t.pbuf = toPulseTrain params 0x0000 ∧ t.env.txBusy = true := by decide

theorem test_init_waits_in_hold_after_fifty_frames :
    let s := blockAt params .installed .rstDrain
    let t := after (quietly { s with cnt := 49, arg := 1 })
    t.phase = .holdIssue ∧ t.cnt = 50 ∧ t.t0 = 7 := by decide

theorem test_send_throttle_completes_at_once :
    let s := blockAt params .armed .thrIssue
    let t := after (quietly { s with arg := 1000 })
    t.pbuf = toPulseTrain params 0x7D0A ∧ t.rspValid = true ∧ t.env.txBusy = true := by decide

theorem test_send_throttle_refused_keeps_armed :
    let s := blockAt params .armed .thrIssue
    let t := after (quietly (refusing { s with arg := 1000 }))
    t.rspStatus = .txErr ∧ t.lifecycle = .armed ∧ t.env.txBusy = false := by decide

theorem test_set_reversed_sends_direction :
    let s := blockAt params .armed .dirIssue
    let t := after (quietly { s with arg := 1 })
    t.pbuf = toPulseTrain params 0x02A8 ∧ t.phase = .dirDrain := by decide

theorem test_set_reversed_refused_falls_back :
    let s := blockAt params .armed .dirIssue
    let t := after (quietly (refusing { s with arg := 1 }))
    t.lifecycle = .installed ∧ t.dirRev = false ∧ t.rspStatus = .txErr := by decide

theorem test_beep_sends_beep1 :
    let t := after (quietly (blockAt params .armed .beepIssue))
    t.pbuf = toPulseTrain params 0x0022 ∧ t.phase = .beepDrain := by decide

theorem test_beep_sleeps_to_tick_272 :
    let s := blockAt params .armed .beepSleep
    (after (quietly { s with ty := 12, env := { s.env with now := 271 } })).phase = .beepSleep
    ∧ (after (quietly { s with ty := 12, env := { s.env with now := 272 } })).phase = .idle := by
  decide

theorem test_send_packet_blocks :
    let s := blockAt params .installed .pktIssue
    let t := after (quietly { s with arg := 0x180C })
    t.pbuf = toPulseTrain params 0x0198 ∧ t.phase = .pktDrain ∧ t.lifecycle = .installed := by decide

theorem test_send_packet_does_not_block :
    let s := blockAt params .installed .pktIssue
    let t := after (quietly { s with arg := 0xE00C })
    t.pbuf = toPulseTrain params 0x0189 ∧ t.phase = .idle ∧ t.rspStatus = .ok := by decide

theorem test_placed_word_runs_first :
    (nextOf (step (State.reset.withFetchWord 24 0x10012))).map (fun t => (t.phase, t.cfgPin)) =
      some (.cfgWait, 18) := by decide

/-! ## Witnesses: for every statement with hypotheses, states and operands that meet them -/

/-- An idle block in the shortest configuration with a word on its port. -/
def idleWith (l : Lifecycle) (w : CmdWord) : State := offered w (blockAt shortParams l .idle)

theorem idleWith_inv (l : Lifecycle) (w : CmdWord) : Inv (idleWith l w) where
  legal := by show shortParams.legal = true; decide
  ticksFit := by show 7 < 2 ^ 32 ∧ 0 < 2 ^ 32 ∧ 0 < 2 ^ 32 ∧ 0 < 2 ^ 32; decide
  pinFits := by show 0 < 2 ^ 8 ∧ 0 < 2 ^ 3; decide
  bufferFits := by
    show ∀ i : Fin 17, (Vector.replicate 17 0 : PulseBuffer)[i] < 2 ^ 32
    decide
  cntFits := Nat.zero_le _
  resetCount h := by rcases h with h | h <;> cases h
  armCount h := by rcases h with h | ⟨h, _⟩ <;> cases h
  dirCount h := by rcases h with h | h <;> cases h
  installing h := by cases h
  running h := absurd rfl h
  throttleBounded h := by cases h
  holdWaits h := by cases h
  armNoWait h := by cases h
  drainBlocks h := by cases h
  busyIsFlight := rfl
  flightTrain pos h := by cases h
  ackAwaited h := by cases h

/-- An armed block waiting in `PKT_DRAIN` for the minimum-throttle train to end. -/
def draining : State :=
  { emitting (encodeFrame 48 false) 0 (blockAt shortParams .armed .pktDrain) with arg := 0x1030 }

theorem draining_inv : Inv draining where
  legal := by decide
  ticksFit := by decide
  pinFits := by decide
  bufferFits := by decide
  cntFits := by decide
  resetCount := by decide
  armCount := by decide
  dirCount := by decide
  installing := by decide
  running := by decide
  throttleBounded := by decide
  holdWaits := by decide
  armNoWait := by decide
  drainBlocks := by decide
  busyIsFlight := by decide
  flightTrain pos h := by
    cases h
    exact ⟨⟨48, false, rfl⟩, by decide⟩
  ackAwaited := by decide

theorem witness_ExampleWordsDecode : params.cmdTelemetry = false := by decide

theorem witness_CommandFieldsAreArgumentBits :
    [0x00000, 0x10012, 0x20001, 0x303E8, 0x40001, 0x50000, 0x6180C, 0x7ABCD].map opOf =
      [0, 1, 2, 3, 4, 5, 6, 7] := by decide

theorem witness_IgnoredArgumentBitsChangeNothing :
    (clearIgnored (.init true 0) = clearIgnored (.init true 1)
      ∧ (idleWith .armed 0x20001).phase = .idle
      ∧ (nextOf (exec (.init true 0) (idleWith .armed 0x20001))).isSome = true)
    ∧ ((blockAt params .armed .dirIssue).phase ≠ .idle
      ∧ (blockAt params .armed .dirIssue).env.rst = false
      ∧ 0xFFFE &&& argMask .dirIssue = (blockAt params .armed .dirIssue).arg &&& argMask .dirIssue) := by
  decide

theorem witness_AssemblerWordsHaveTheListedFields :
    (assemble params (.install 255 7)).isSome = true ∧ (assemble params (.init 1)).isSome = true
    ∧ (assemble params (.sendThrottle 65535)).isSome = true
    ∧ (assemble params (.setReversed 1)).isSome = true ∧ (assemble params .beep).isSome = true
    ∧ (assemble params (.sendPacket 2047 1 1)).isSome = true
    ∧ (assemble params (.sendCmd .led3Off none (some 0))).isSome = true := by decide

theorem witness_PayloadsAreClassifiedByValue :
    (13 ≤ (13 : Payload).toNat ∧ (13 : Payload).toNat ≤ 19)
    ∧ (13 ≤ (19 : Payload).toNat ∧ (19 : Payload).toNat ≤ 19)
    ∧ (30 ≤ (30 : Payload).toNat ∧ (47 : Payload).toNat ≤ 47) ∧ 48 ≤ (2047 : Payload).toNat
    ∧ (12 : Payload).toNat ≤ 12 ∧ (20 ≤ (20 : Payload).toNat ∧ (29 : Payload).toNat ≤ 29) := by decide

theorem witness_ChecksumFoldsThreeNibbles :
    computeChecksum (0x060 ^^^ 1#12 <<< 0) = 0x7 ∧ computeChecksum (0x060 ^^^ 1#12 <<< 11) = 0xE := by
  decide

theorem witness_FrameHasPayloadTelemetryChecksum : encodeFrame 48 false = encodeFrame 48 false := rfl

theorem witness_LookUpTableSymbols : params.legal = true := by decide

theorem witness_TrainHoldsFrameBitsThenPause :
    symOne params ≠ symZero params
    ∧ toPulseTrain params 0x0606 = toPulseTrain params 0x0606 := ⟨by decide, rfl⟩

theorem witness_EncoderRoundTripAndErrorDetection : (0 < 12 ∧ 11 < 12)
    ∧ computeChecksum (0x060 ^^^ 1#12 <<< 11) ≠ computeChecksum 0x060 := by decide

theorem witness_EmittedTrainIsTheFrameWaveform :
    params.legal = true ∧ 18 < params.ticksPerBit ∧ 16 * params.ticksPerBit ≤ 304
    ∧ draining.pbuf = toPulseTrain shortParams (encodeFrame 48 false)
    ∧ draining.env.flight = some 0 := by decide

theorem witness_TrainLastsSixteenBitsAndPause : params.legal = true := by decide

theorem witness_AcceptStepFollowsDispatchTable :
    (idleWith .failed 0).phase = .idle ∧ (idleWith .failed 0).lifecycle = .failed
    ∧ (idleWith .armed 0).lifecycle ≠ .failed ∧ (Instr.reservedOp0 0).op = 0
    ∧ (Instr.reservedOp7 0).op = 7
    ∧ ((Instr.sendThrottle 47).op = 3 ∧ ¬ shortParams.thrMin ≤ (Instr.sendThrottle 47).arg.toNat)
    ∧ ¬ (Instr.sendThrottle 2048).arg.toNat ≤ shortParams.thrMax
    ∧ ((Instr.install 18 0 0).op = 1 ∧ (idleWith .installed 0).lifecycle = .installed)
    ∧ ((Instr.init true 0).op ≠ 1 ∧ (idleWith .uninstalled 0).lifecycle = .uninstalled)
    ∧ (shortParams.thrMin ≤ (Instr.sendThrottle 48).arg.toNat
        ∧ (Instr.sendThrottle 2047).arg.toNat ≤ shortParams.thrMax) := by decide

theorem witness_CommandsAreTakenOnlyInIdle :
    ((quietly (blockAt params .armed .thrIssue)).phase ≠ .idle
      ∧ (nextOf (step (quietly (blockAt params .armed .thrIssue)))).isSome = true
      ∧ (nextMove (quietly (blockAt params .armed .thrIssue)).env).host = .hold)
    ∧ ((blockAt params .armed .idle).phase = .idle ∧ (blockAt params .armed .idle).env.rst = false
      ∧ (blockAt params .armed .idle).env.cmd = none)
    ∧ ((idleWith .armed 0x50000).env.cmd = some 0x50000
      ∧ (nextOf (exec (decode 0x50000) (idleWith .armed 0x50000))).isSome = true) := by decide

theorem witness_ReservedOperationsAnswerInvalidArg :
    (idleWith .failed 0).phase = .idle ∧ (idleWith .armed 0).phase = .idle := by decide

theorem witness_InstallConfiguresTheChannel :
    ((idleWith .uninstalled 0x10012).phase = .idle
      ∧ (idleWith .uninstalled 0x10012).lifecycle = .uninstalled)
    ∧ (blockAt params .uninstalled .cfgWait).phase = .cfgWait
    ∧ (blockAt params .uninstalled .cfgWait).env.cfgAck = false
    ∧ (255 < 2 ^ params.pinW ∧ 7 < 2 ^ params.chW) := by decide

theorem witness_InitStartsItsResetFrames :
    (idleWith .installed 0x20000).phase = .idle ∧ (idleWith .installed 0x20000).lifecycle = .installed
    ∧ (idleWith .armed 0x20000).lifecycle = .armed := by decide

theorem witness_InitRowsSendResetAndThrottleFrames :
    (blockAt params .armed .rstIssue).env.txBusy = false
    ∧ (blockAt params .armed .rstIssue).env.flight = none
    ∧ (blockAt params .armed .rstIssue).env.startErr = false
    ∧ (blockAt params .armed .rstDrain).cnt + 1 < params.resetFrames
    ∧ ({ blockAt params .armed .rstDrain with cnt := 49, arg := 1 } : State).cnt + 1
        = params.resetFrames
    ∧ (1 : Arg).getLsbD 0 = true ∧ (0 : Arg).getLsbD 0 = false
    ∧ (blockAt params .armed .armIssue).phase = .armIssue := by decide

theorem witness_HoldWindowRows :
    let s := blockAt params .armed .holdIssue
    let open5000 : State := { s with env := { s.env with now := 5000 } }
    let open200 : State := { s with ctx := .rev, env := { s.env with now := 200 } }
    (s.phase = .holdIssue ∧ s.env.txBusy = false ∧ s.env.flight = none ∧ s.env.startErr = false
      ∧ elapsed s s.t0 < params.armTicks)
    ∧ params.armTicks ≤ elapsed open5000 open5000.t0
    ∧ params.revHoldTicks ≤ elapsed open200 open200.t0
    ∧ params.yieldTicks ≤ elapsed s s.ty
    ∧ elapsed { s with ty := 7 } 7 < params.yieldTicks := by decide

theorem witness_NoHoldFrameAfterTheWindow :
    let s := blockAt params .armed .holdIssue
    let open5000 : State := { s with env := { s.env with now := 5000 } }
    holdWindow params .arm ≤ elapsed open5000 open5000.t0
    ∧ (after (quietly (blockAt params .armed .holdYield))).phase = .holdIssue
    ∧ (nextOf (step (quietly (blockAt params .armed .holdYield)))).isSome = true
    ∧ (after (quietly s)).phase = .holdYield
    ∧ (nextOf (step (quietly s))).isSome = true := by decide

theorem witness_SendThrottleSendsOneFrame :
    ((idleWith .installed 0x30030).phase = .idle
      ∧ (idleWith .installed 0x30030).lifecycle = .installed
      ∧ shortParams.thrMin ≤ (48 : Arg).toNat ∧ (2047 : Arg).toNat ≤ shortParams.thrMax)
    ∧ (blockAt params .armed .thrIssue).env.txBusy = false
    ∧ (blockAt params .armed .thrIssue).env.flight = none
    ∧ (blockAt params .armed .thrIssue).env.startErr = false := by decide

theorem witness_SetReversedStartsItsHandshake :
    (idleWith .installed 0x40001).phase = .idle ∧ (idleWith .installed 0x40001).lifecycle = .installed
    ∧ (idleWith .armed 0x40001).lifecycle = .armed := by decide

theorem witness_SetReversedRowsSendDirectionFrames :
    (blockAt params .armed .revFlush).env.txBusy = false
    ∧ (blockAt params .armed .dirIssue).env.flight = none
    ∧ (blockAt params .armed .dirIssue).env.startErr = false
    ∧ (blockAt params .armed .dirDrain).cnt + 1 < params.dirRepeats
    ∧ ({ blockAt params .armed .dirDrain with cnt := 9 } : State).cnt + 1 = params.dirRepeats := by
  decide

theorem witness_BeepSendsAndSleeps :
    let s := blockAt params .armed .beepSleep
    let open260 : State := { s with env := { s.env with now := 260 } }
    (idleWith .armed 0x50000).phase = .idle ∧ (idleWith .armed 0x50000).lifecycle = .armed
    ∧ (blockAt params .armed .beepIssue).env.flight = none
    ∧ (blockAt params .armed .beepDrain).env.txBusy = false
    ∧ params.beepSleepTicks ≤ elapsed open260 open260.ty
    ∧ elapsed s s.ty < params.beepSleepTicks := by decide

theorem witness_SendPacketSendsItsPacket :
    (idleWith .installed 0x6180C).phase = .idle ∧ (idleWith .armed 0x6180C).lifecycle = .armed
    ∧ (blockAt params .armed .pktIssue).env.txBusy = false
    ∧ (blockAt params .armed .pktIssue).env.flight = none
    ∧ (0x180C : Arg).getLsbD 12 = true ∧ (0xE00C : Arg).getLsbD 12 = false
    ∧ (blockAt params .armed .pktDrain).phase = .pktDrain := by decide

theorem witness_RefusedStartAbortsTheCommand :
    issuedFrame (refusing (blockAt params .armed .armIssue)) = some 0x0606
    ∧ issuedFrame (refusing (blockAt params .armed .beepIssue)) = some 0x0022
    ∧ (refusing (blockAt params .armed .armIssue)).env.flight = none
    ∧ (refusing (blockAt params .armed .armIssue)).env.startErr = true := by decide

theorem witness_TransmitterWaitTimesOutOrHolds :
    (draining.phase.waitsOnTransmitter = true ∧ draining.env.txBusy = true)
    ∧ ({ draining with env := { draining.env with now := 10 } } : State).params.txTimeout = some 10
    ∧ 10 ≤ elapsed { draining with env := { draining.env with now := 10 } } draining.tw
    ∧ elapsed draining draining.tw < 10
    ∧ (blockAt params .armed .thrIssue).env.txBusy = false := by decide

theorem witness_OnlyAnIssueWritesThePulseBuffer :
    (nextOf (step (quietly (blockAt params .armed .thrIssue)))).isSome = true
    ∧ issuedFrame (blockAt params .armed .rstIssue) = some 0x0000 := by decide

theorem witness_LifecycleChangesOnlyAsListed :
    let acked (e : Bool) : State :=
      let s := blockAt params .uninstalled .cfgWait
      quietly { s with env := { s.env with cfgAck := true, cfgErr := e } }
    let s := blockAt params .armed .idle
    (after (quietly { s with env := { s.env with rst := true } })).lifecycle = .uninstalled
    ∧ (after (acked false)).lifecycle = .installed ∧ (after (acked true)).lifecycle = .failed
    ∧ (after (quietly (blockAt params .installed .armIssue))).lifecycle = .armed
    ∧ (after (quietly (refusing (blockAt params .armed .rstIssue)))).lifecycle = .installed := by
  decide

theorem witness_FailedIsStickyUntilReset :
    Inv (idleWith .failed 0x50000) ∧ (idleWith .failed 0x50000).lifecycle = .failed
    ∧ (idleWith .failed 0x50000).env.rst = false ∧ (idleWith .failed 0x50000).phase = .idle
    ∧ (nextOf (step (idleWith .failed 0x50000))).isSome = true :=
  ⟨idleWith_inv _ _, rfl, rfl, rfl, by decide⟩

theorem witness_DirectionPinAndArgWriters :
    let done : State := { blockAt shortParams .armed .dirDrain with arg := 1 }
    (after (quietly done)).dirRev = true ∧ done.dirRev = false
    ∧ (after (quietly (idleWith .uninstalled 0x10305))).cfgPin = 5
    ∧ accepted (quietly (idleWith .uninstalled 0x10305)) = some (.install 5 3 0)
    ∧ accepted (quietly done) = none
    ∧ (nextOf (step (quietly done))).isSome = true := by decide

theorem witness_CounterAndTimestampWriters :
    let full : State := { blockAt params .armed .rstDrain with cnt := 49, arg := 1 }
    (after (quietly full)).t0 ≠ full.t0 ∧ (after (quietly full)).cnt ≠ full.cnt
    ∧ (after (quietly (blockAt params .armed .revFlush))).ctx ≠ .arm
    ∧ (after (quietly (blockAt params .armed .beepDrain))).ty ≠ 0
    ∧ (after (quietly (blockAt params .armed .rstIssue))).tw ≠ 0
    ∧ (after (quietly ({ idleWith .armed 0x20000 with cnt := 3 }))).cnt = 0 := by decide

theorem witness_ResponsePulsesOncePerCommand :
    (nextOf (step (quietly (idleWith .armed 0x00000)))).isSome = true
    ∧ (after (quietly (idleWith .armed 0x00000))).rspValid = true
    ∧ (after (quietly (blockAt params .armed .holdYield))).rspValid = false := by decide

theorem witness_WaitingStepsWriteNothing :
    (nextOf (step (quietly draining))).isSome = true ∧ (quietly draining).env.rst = false
    ∧ accepted (quietly draining) = none
    ∧ (after (quietly draining)).phase = (quietly draining).phase := by decide

theorem witness_PhasesFollowTheTransitionTable :
    (nextOf (step (quietly draining))).isSome = true ∧ (quietly draining).env.rst = false := by decide

theorem witness_BlockLeavesTheEnvironmentAlone :
    (nextOf (blockStep draining)).isSome = true
    ∧ (nextOf (step (quietly draining))).isSome = true := by decide

theorem witness_ResetValuesOfEveryRegister :
    let s : State := { draining with env := { draining.env with rst := true } }
    (nextOf (step (quietly s))).isSome = true ∧ (quietly s).env.rst = true := by decide

theorem witness_ResetStepLeavesTheTransmitterAlone :
    let s : State := { draining with env := { draining.env with rst := true } }
    Inv s ∧ s.env.rst = true ∧ s.env.flight = some 0
    ∧ (nextOf (step (quietly s))).isSome = true
    ∧ (nextOf (step (withMoves [trainEnds] s))).isSome = true
    ∧ (after (quietly s)).env.flight = some 0
    ∧ (after (withMoves [trainEnds] s)).env.flight = none :=
  ⟨{ draining_inv with ackAwaited := by decide }, rfl, rfl, by decide, by decide, by decide,
    by decide⟩

theorem witness_ElapsedCountsAcrossTheWrap :
    0xFFFFFFFF < 2 ^ params.tickW ∧ 200 < 2 ^ params.tickW := by decide

theorem witness_TickCountOnlyAdvances :
    (nextOf (step (quietly draining))).isSome = true := by decide

theorem witness_TransmitterIsBusyUntilTheTrainEnds :
    (Inv draining ∧ (nextOf (step draining)).isSome = true ∧ draining.env.flight = some 0)
    ∧ Inv (idleWith .armed 0x50000) ∧ (idleWith .armed 0x50000).env.txBusy = false
    ∧ (nextOf (step (quietly (idleWith .armed 0x50000)))).isSome = true :=
  ⟨⟨draining_inv, rfl, rfl⟩, idleWith_inv _ _, rfl, by decide⟩

theorem witness_ConfigureAnswersOnlyARequest :
    let waiting := withMoves [{ quiet with cfgAnswer := true }] (blockAt params .uninstalled .cfgWait)
    (nextOf (step waiting)).isSome = true ∧ (after waiting).env.cfgAck = true
    ∧ cfgReq (after waiting) = true ∧ (after waiting).env.cfgErr = false := by decide

theorem witness_OutputPortsShowTheState :
    ((nextOf (blockStep draining)).isSome = true ∧ (outputs draining).txStart = false)
    ∧ (outputs (blockAt params .armed .holdIssue)).txStart = true
    ∧ (0 : BitVec 5).toNat < 17 ∧ (16 : BitVec 5).toNat < 17 ∧ 17 ≤ (17 : BitVec 5).toNat
    ∧ 17 ≤ (31 : BitVec 5).toNat := by decide

theorem witness_StepRunsTheDecodedCommand :
    let s := idleWith .armed 0x50000
    s.params.legal = true ∧ s.env.rst = false ∧ s.phase = .idle ∧ s.env.cmd = some 0x50000 := by decide

theorem witness_PlacedWordIsTheNextCommand :
    (blockAt params .armed .idle).params.legal = true
    ∧ decodeTableWord 24 0x6180C = some (.sendPacket 12 true true 0) := by decide

theorem witness_OnlyIllegalConfigurationsAreRefused :
    let s := blockAt { params with yieldTicks := 0 } .armed .idle
    s.params.legal = false ∧ step s = .refused .illegalConfiguration ∧ params.legal = true :=
  ⟨by decide, rfl, by decide⟩

theorem witness_FaultsNeedABrokenTransmitter :
    let dropped : State := { draining with phase := .thrIssue, env := { draining.env with txBusy := false } }
    let endless : State :=
      { draining with
        pbuf := Vector.replicate 17 (symOne params),
        env := { draining.env with moves := [trainEnds] } }
    step dropped = .fault .pulseBufferOverwrite
    ∧ step endless = .fault .pulseBufferReadOutOfRange := ⟨rfl, rfl⟩

theorem witness_EveryStepKeepsTheInvariant :
    Inv draining ∧ step draining = .next (after draining) := ⟨draining_inv, step_after rfl⟩

theorem witness_LawfulMachineAlwaysSteps : Inv draining := draining_inv

theorem witness_TrainInFlightIsNeverOverwritten :
    Inv draining ∧ Run draining [] draining ∧ step draining = .next (after draining)
    ∧ draining.env.flight.isSome = true := ⟨draining_inv, .refl _, step_after rfl, rfl⟩

/-- Moves under which any command of the shortest configuration ends with OK from its first step on. -/
def smooth : List EnvMove := [quiet, quiet, { trainEnds with cfgAnswer := true }, quiet, quiet, quiet]

/-- A command accepted by an idle block of the shortest configuration, and run to its end. -/
theorem commandRun_of_finish {l : Lifecycle} {w : CmdWord} {ms : List EnvMove}
    {r : List Event × State}
    (h : finish 8 (after (withMoves ms (idleWith l w))) = some r) :
    CommandRun (after (withMoves ms (idleWith l w))) r.1 r.2 :=
  finish_commandRun h

theorem witness_InitSendsAllResetFramesThenThrottle :
    let s := withMoves smooth (idleWith .installed 0x20000)
    accepted s = some (.init false 0) ∧ step s = .next (after s) ∧ (after s).phase ≠ .idle
    ∧ ∃ es t, CommandRun (after s) es t ∧ Ended .ok t :=
  ⟨by decide, step_after rfl, by decide, _, _, commandRun_of_finish rfl, rfl, rfl, rfl⟩

theorem witness_SetReversedSendsAllDirectionFrames :
    let s := withMoves (quiet :: quiet :: smooth) (idleWith .armed 0x40001)
    accepted s = some (.setReversed true 0) ∧ step s = .next (after s) ∧ (after s).phase ≠ .idle
    ∧ ∃ es t, CommandRun (after s) es t ∧ Ended .ok t :=
  ⟨by decide, step_after rfl, by decide, _, _, commandRun_of_finish rfl, rfl, rfl, rfl⟩

theorem witness_OtherCommandsSendTheirOneFrame :
    let s := withMoves smooth (idleWith .armed 0x303E8)
    accepted s = some (.sendThrottle 1000) ∧ step s = .next (after s) ∧ (after s).phase ≠ .idle
    ∧ ∃ es t, CommandRun (after s) es t ∧ Ended .ok t :=
  ⟨by decide, step_after rfl, by decide, _, _, commandRun_of_finish rfl, rfl, rfl, rfl⟩

theorem witness_OtherCommandsSendTheirOneFrame_install :
    let s := withMoves smooth (idleWith .uninstalled 0x10012)
    accepted s = some (.install 18 0 0) ∧ step s = .next (after s) ∧ (after s).phase ≠ .idle
    ∧ ∃ es t, CommandRun (after s) es t ∧ Ended .ok t :=
  ⟨by decide, step_after rfl, by decide, _, _, commandRun_of_finish rfl, rfl, rfl, rfl⟩

theorem witness_OtherCommandsSendTheirOneFrame_beep :
    let s := withMoves smooth (idleWith .armed 0x50000)
    accepted s = some (.beep 0) ∧ step s = .next (after s) ∧ (after s).phase ≠ .idle
    ∧ ∃ es t, CommandRun (after s) es t ∧ Ended .ok t :=
  ⟨by decide, step_after rfl, by decide, _, _, commandRun_of_finish rfl, rfl, rfl, rfl⟩

theorem witness_OtherCommandsSendTheirOneFrame_packet :
    let s := withMoves smooth (idleWith .armed 0x6180C)
    accepted s = some (.sendPacket 12 true true 0) ∧ step s = .next (after s)
    ∧ (after s).phase ≠ .idle ∧ ∃ es t, CommandRun (after s) es t ∧ Ended .ok t :=
  ⟨by decide, step_after rfl, by decide, _, _, commandRun_of_finish rfl, rfl, rfl, rfl⟩

theorem witness_RefusedStartIsTheLastOfItsCommand :
    let s := refusing (blockAt shortParams .armed .beepIssue)
    s.phase ≠ .idle ∧ ∃ es t, CommandRun s es t ∧ (0x0022, false) ∈ startsOf es :=
  ⟨by decide, _, _, finish_commandRun (n := 2) rfl, by decide⟩

theorem witness_ShortCommandsCanComplete :
    let s := idleWith .armed 0x50000
    Inv s ∧ accepted s = some (.beep 0) ∧ s.env.flight = none ∧ s.params.txTimeout ≠ some 0
    ∧ rejection s.params s.lifecycle (.beep 0) = none :=
  ⟨idleWith_inv _ _, by decide, rfl, by decide, by decide⟩

theorem witness_InitCanArm :
    let s := idleWith .installed 0x20001
    Inv s ∧ accepted s = some (.init true 0) ∧ s.env.flight = none ∧ s.params.txTimeout ≠ some 0
    ∧ s.lifecycle = .installed :=
  ⟨idleWith_inv _ _, by decide, rfl, by decide, rfl⟩

theorem witness_SetReversedCanComplete :
    let s := idleWith .armed 0x40001
    Inv s ∧ accepted s = some (.setReversed true 0) ∧ s.env.flight = none
    ∧ s.params.txTimeout ≠ some 0 ∧ s.lifecycle = .armed :=
  ⟨idleWith_inv _ _, by decide, rfl, by decide, rfl⟩

end Sys2Proof.Tests
end

section
/-! The pulse buffer: which frames an issue sends, in which steps there is an issue, and what a step leaves in the buffer (20 R54, 41 R134, R148). -/

namespace Sys2Proof.Machine

/-! ## The fields of an encoded frame -/

theorem frameChecksum_encodeFrame (q : Payload) (b : Bool) :
    frameChecksum (encodeFrame q b) = computeChecksum (packetBits q b) := by
  apply BitVec.eq_of_getLsbD_eq
  intro k hk
  simp [frameChecksum, encodeFrame_bit, hk]

theorem upperBits_encodeFrame (q : Payload) (b : Bool) :
    (encodeFrame q b).extractLsb' 4 12 = packetBits q b := by
  apply BitVec.eq_of_getLsbD_eq
  intro k hk
  simp [encodeFrame_bit, hk]

@[simp] theorem validFrame_encodeFrame (q : Payload) (b : Bool) :
    validFrame (encodeFrame q b) = true := by
  rw [validFrame, frameChecksum_encodeFrame, upperBits_encodeFrame, beq_self_eq_true]

/-! ## When a step issues, and what -/

/-- The phases whose row of 41 R146 names `issue`. -/
def issuePhases : List Phase :=
  [.rstIssue, .armIssue, .holdIssue, .dirIssue, .beepIssue, .thrIssue, .pktIssue]

/-- An issuing phase sends an encoded packet, unless it is `HOLD_ISSUE` and its window is over. -/
theorem issuedFrame_phase_and_packet {s : State} {f : Frame} (h : issuedFrame s = some f) :
    s.phase ∈ issuePhases ∧ (s.phase = .holdIssue → windowOver s = false)
    ∧ ∃ q b, f = encodeFrame q b := by
  obtain ⟨hr, hb, -⟩ := issuedFrame_eq_some h
  cases hph : s.phase <;> simp only [issuedFrame, hr, hb, hph, Bool.false_eq_true, if_false] at h
  case rstIssue | armIssue | dirIssue | beepIssue | thrIssue | pktIssue =>
    exact ⟨by decide, nofun, _, _, (Option.some.inj h).symm⟩
  case holdIssue =>
    split at h
    · cases h
    · exact ⟨by decide, fun _ => eq_false_of_ne_true ‹_›, _, _, (Option.some.inj h).symm⟩
  all_goals cases h

theorem issuedFrame_of_reset {s : State} (h : s.env.rst = true) : issuedFrame s = none := by
  simp [issuedFrame, h]

theorem issuedFrame_of_busy {s : State} (h : s.env.txBusy = true) : issuedFrame s = none := by
  simp [issuedFrame, h]

theorem issuedFrame_of_phase {s : State} {ph : Phase} (h : s.phase = ph) (hn : ph ∉ issuePhases) :
    issuedFrame s = none :=
  Option.eq_none_iff_forall_ne_some.mpr fun _ hf =>
    hn (h ▸ (issuedFrame_phase_and_packet hf).1)

theorem issuedFrame_of_windowOver {s : State} (h : s.phase = .holdIssue)
    (hw : windowOver s = true) : issuedFrame s = none :=
  Option.eq_none_iff_forall_ne_some.mpr fun _ hf =>
    Bool.false_ne_true (((issuedFrame_phase_and_packet hf).2.1 h).symm.trans hw)

theorem issuedFrame_of_accepted {s : State} {i : Instr} (h : accepted s = some i) :
    issuedFrame s = none :=
  issuedFrame_of_phase (accepted_eq_some h).2.1 (by decide)

theorem issuedFrame_of_waits {s : State} (h : Waits s) : issuedFrame s = none := by
  obtain ⟨hph, -⟩ | ⟨hph, -⟩ | ⟨hph, -⟩ | ⟨-, hb, -⟩ := h
  · exact issuedFrame_of_phase hph (by decide)
  · exact issuedFrame_of_phase hph (by decide)
  · exact issuedFrame_of_phase hph (by decide)
  · exact issuedFrame_of_busy hb

/-! ## What a step leaves in the buffer -/

/-- A row of the table either issues a frame and loads its whole train, or does neither. -/
theorem tableRow_pbuf {s u : State} (h : TableRow s u) :
    (∃ f, issuedFrame s = some f ∧ u.pbuf = toPulseTrain s.params f)
    ∨ (issuedFrame s = none ∧ u.pbuf = s.pbuf) := by
  cases h with
  | refused f hf | rstSent f hf | armSent f hf | holdSent f hf | dirSent f hf | beepSent f hf
  | throttleSent f hf | packetSent f hf | packetDone f hf => exact .inl ⟨f, hf, rfl⟩
  | reset hr => exact .inr ⟨issuedFrame_of_reset hr, rfl⟩
  | reject _ _ ha | startInstall _ _ _ ha | startInit _ _ ha | startThrottle _ ha
  | startReverse _ _ ha | startBeep _ ha | startPacket _ _ _ _ ha =>
    exact .inr ⟨issuedFrame_of_accepted ha, rfl⟩
  | wait _ _ hw => exact .inr ⟨issuedFrame_of_waits hw, rfl⟩
  | timeout _ _ hb => exact .inr ⟨issuedFrame_of_busy hb, rfl⟩
  | holdArmed _ hph _ hw | holdReverse _ hph _ hw =>
    exact .inr ⟨issuedFrame_of_windowOver hph hw, rfl⟩
  | idle _ hph | cfgOk _ hph | cfgFail _ hph | rstNext _ hph | rstHold _ hph | rstArm _ hph
  | yielded _ hph | flushed _ hph | dirNext _ hph | dirDone _ hph | beepDrained _ hph
  | beepDone _ hph | packetDrained _ hph =>
    exact .inr ⟨issuedFrame_of_phase hph (by decide), rfl⟩

/-- Only the block writes the buffer: the environment's move keeps what the row left in it. -/
theorem step_pbuf {s t : State} (h : step s = .next t) :
    (∃ f, issuedFrame s = some f ∧ t.pbuf = toPulseTrain s.params f)
    ∨ (issuedFrame s = none ∧ t.pbuf = s.pbuf) := by
  obtain ⟨-, u, fl, hrow, -, rfl⟩ := step_tableRow h
  exact (tableRow_pbuf hrow :)

/-- Settles O29: `step_pbuf` for the buffer, `issuedFrame_phase_and_packet` for the frames. -/
theorem onlyAnIssueWritesThePulseBuffer : Obligations.OnlyAnIssueWritesThePulseBuffer := by
  refine ⟨fun s t h => ?_, fun s f hf => ?_⟩
  · obtain ⟨f, hf, hb⟩ | ⟨hf, hb⟩ := step_pbuf h
    · rw [hb, hf]
    · rw [hb, hf]
  · obtain ⟨-, hb, -⟩ := issuedFrame_eq_some hf
    obtain ⟨hph, -, q, b, rfl⟩ := issuedFrame_phase_and_packet hf
    exact ⟨hph, hb, validFrame_encodeFrame q b, q, b, rfl⟩

end Sys2Proof.Machine
end

section
/-! What a command does without its ignored argument bits: neither the accept step nor a running row reads them (30 R80, R82). -/

namespace Sys2Proof.Machine

/-! ## The accept step -/

/-- The first-step actions of each command (41 R139 to R145). -/
def startOf : Instr → State → State
  | .install pin channel _ => startInstall pin channel
  | .init _ _ => startInit
  | .sendThrottle _ => startThrottle
  | .setReversed _ _ => startReverse
  | .beep _ => startBeep
  | .sendPacket _ _ _ _ => startPacket
  | .reservedOp0 _ | .reservedOp7 _ => hold

theorem exec_eq_command (i : Instr) (s : State) : exec i s = command i (startOf i) s := by
  cases i <;> rfl

@[simp] theorem startOf_clearIgnored (i : Instr) : startOf (clearIgnored i) = startOf i := by
  cases i <;> rfl

@[simp] theorem rejection_clearIgnored (p : Params) (l : Lifecycle) (i : Instr) :
    rejection p l (clearIgnored i) = rejection p l i := by
  cases i <;> rfl

/-- The state with another word in register `arg`. -/
def withArg (a : Arg) (s : State) : State :=
  { s with arg := a }

@[simp] theorem withArg_phase (a : Arg) (s : State) : (withArg a s).phase = s.phase := rfl
@[simp] theorem withArg_arg (a : Arg) (s : State) : (withArg a s).arg = a := rfl
@[simp] theorem withArg_ctx (a : Arg) (s : State) : (withArg a s).ctx = s.ctx := rfl
@[simp] theorem withArg_params (a : Arg) (s : State) : (withArg a s).params = s.params := rfl
@[simp] theorem withArg_env (a : Arg) (s : State) : (withArg a s).env = s.env := rfl

@[simp] theorem timedOut_withArg (a : Arg) (s : State) : timedOut (withArg a s) = timedOut s := rfl
@[simp] theorem windowOver_withArg (a : Arg) (s : State) :
    windowOver (withArg a s) = windowOver s := rfl
@[simp] theorem yieldOver_withArg (a : Arg) (s : State) :
    yieldOver (withArg a s) = yieldOver s := rfl
@[simp] theorem sleepOver_withArg (a : Arg) (s : State) :
    sleepOver (withArg a s) = sleepOver s := rfl
@[simp] theorem moreResetFrames_withArg (a : Arg) (s : State) :
    moreResetFrames (withArg a s) = moreResetFrames s := rfl
@[simp] theorem moreDirFrames_withArg (a : Arg) (s : State) :
    moreDirFrames (withArg a s) = moreDirFrames s := rfl

/-- No first-step action reads or writes `arg`. -/
theorem startOf_withArg (i : Instr) (a : Arg) (s : State) :
    startOf i (withArg a s) = withArg a (startOf i s) := by
  cases i <;> rfl

theorem exec_congr_clearIgnored {i j : Instr} {s t : State} (hij : clearIgnored i = clearIgnored j)
    (hp : s.phase = .idle) (h : exec i s = .next t) : exec j s = .next (withArg j.arg t) := by
  have hrej : rejection s.params s.lifecycle j = rejection s.params s.lifecycle i := by
    rw [← rejection_clearIgnored, ← hij, rejection_clearIgnored]
  have hstart : startOf j = startOf i := by
    rw [← startOf_clearIgnored, ← hij, startOf_clearIgnored]
  cases hr : rejection s.params s.lifecycle i with
  | some st =>
    rw [exec_rejected hp hr] at h
    obtain rfl := Host.Outcome.next.inj h
    exact exec_rejected hp (hrej.trans hr)
  | none =>
    rw [exec_eq_command, command_started hp hr] at h
    obtain rfl := Host.Outcome.next.inj h
    rw [exec_eq_command, command_started hp (hrej.trans hr), hstart, ← startOf_withArg]
    rfl

/-! ## The bits a row reads -/

section Masked
variable {a b m : Arg} (h : a &&& m = b &&& m)
include h

theorem getLsbD_eq_of_masked {k : Nat} (hk : m.getLsbD k = true) : a.getLsbD k = b.getLsbD k := by
  simpa [hk] using congrArg (BitVec.getLsbD · k) h

theorem argFlag_eq_of_masked (hm : m.getLsbD 0 = true) : argFlag a = argFlag b :=
  getLsbD_eq_of_masked h hm

theorem argPayload_eq_of_masked (hm : ∀ k < 11, m.getLsbD k = true) :
    argPayload a = argPayload b := by
  apply BitVec.eq_of_getLsbD_eq
  intro k hk
  simpa [argPayload, hk] using getLsbD_eq_of_masked h (hm k hk)

end Masked

section Frames
variable {a b : Arg}

theorem directionFrame_congr (p : Params) (h : a &&& argMask .dirIssue = b &&& argMask .dirIssue) :
    directionFrame p a = directionFrame p b := by
  rw [directionFrame, argFlag_eq_of_masked h (by decide), directionFrame]

theorem throttleFrame_congr (h : a &&& argMask .thrIssue = b &&& argMask .thrIssue) :
    throttleFrame a = throttleFrame b := by
  rw [throttleFrame, argPayload_eq_of_masked h (by decide), throttleFrame]

theorem packetFrame_congr (h : a &&& argMask .pktIssue = b &&& argMask .pktIssue) :
    packetFrame a = packetFrame b := by
  have ht : argTelemetry a = argTelemetry b := getLsbD_eq_of_masked h (by decide)
  rw [packetFrame, argPayload_eq_of_masked h (by decide), ht, packetFrame]

end Frames

/-! ## A running row -/

/-- `await_idle` does not read `arg` itself. -/
theorem awaitIdle_withArg {progress progress' : State → Result} {a : Arg} {s : State}
    (h : progress' (withArg a s) = mapNext (withArg a) (progress s)) :
    awaitIdle progress' (withArg a s) = mapNext (withArg a) (awaitIdle progress s) := by
  unfold awaitIdle
  rw [withArg_env, timedOut_withArg]
  split
  · exact h
  · split <;> rfl

/-- `issue` does not read `arg` itself, and hands the rest of its row the state's own `arg`. -/
theorem issue_withArg {f f' : Frame} {rest : State → State} {a : Arg} {s : State} (hf : f' = f)
    (h : ∀ u, u.arg = s.arg → rest (withArg a u) = withArg a (rest u)) :
    issue f' rest (withArg a s) = mapNext (withArg a) (issue f rest s) := by
  unfold issue
  rw [hf, withArg_env]
  split
  · rfl
  · split
    · rfl
    · exact congrArg _ (h (startFlight (loadTrain f s)) rfl)

theorem exitHold_withArg (a : Arg) (s : State) :
    exitHold (withArg a s) = withArg a (exitHold s) := by
  unfold exitHold
  rw [withArg_ctx]
  cases s.ctx <;> rfl

section Rows
variable {a : Arg} {s : State}

theorem rowHoldIssue_withArg :
    rowHoldIssue (withArg a s) = mapNext (withArg a) (rowHoldIssue s) := by
  refine awaitIdle_withArg ?_
  rw [windowOver_withArg]
  split
  · exact congrArg _ (exitHold_withArg a s)
  · exact issue_withArg rfl fun _ _ => rfl

theorem rowCfgWait_withArg : rowCfgWait (withArg a s) = mapNext (withArg a) (rowCfgWait s) := by
  unfold rowCfgWait
  rw [withArg_env]
  split
  · split <;> rfl
  · rfl

theorem rowHoldYield_withArg :
    rowHoldYield (withArg a s) = mapNext (withArg a) (rowHoldYield s) := by
  unfold rowHoldYield
  rw [yieldOver_withArg]
  split <;> rfl

theorem rowBeepSleep_withArg :
    rowBeepSleep (withArg a s) = mapNext (withArg a) (rowBeepSleep s) := by
  unfold rowBeepSleep
  rw [sleepOver_withArg]
  split <;> rfl

theorem rowRstDrain_withArg (h : a &&& argMask .rstDrain = s.arg &&& argMask .rstDrain) :
    rowRstDrain (withArg a s) = mapNext (withArg a) (rowRstDrain s) := by
  refine awaitIdle_withArg ?_
  rw [moreResetFrames_withArg, withArg_arg, argFlag_eq_of_masked h (by decide)]
  split
  · rfl
  · split <;> rfl

theorem rowDirDrain_withArg (h : a &&& argMask .dirDrain = s.arg &&& argMask .dirDrain) :
    rowDirDrain (withArg a s) = mapNext (withArg a) (rowDirDrain s) := by
  refine awaitIdle_withArg ?_
  rw [moreDirFrames_withArg, withArg_arg, argFlag_eq_of_masked h (by decide)]
  split <;> rfl

theorem rowPktIssue_withArg (h : a &&& argMask .pktIssue = s.arg &&& argMask .pktIssue) :
    rowPktIssue (withArg a s) = mapNext (withArg a) (rowPktIssue s) := by
  have hb : argBlock a = argBlock s.arg := getLsbD_eq_of_masked h (by decide)
  refine awaitIdle_withArg <| issue_withArg (packetFrame_congr h) fun u hu => ?_
  rw [withArg_arg, hu, hb]
  cases argBlock s.arg <;> rfl

/-- A running row moves alike from two states that agree on the bits of `arg` it reads. -/
theorem runPhase_withArg (h : a &&& argMask s.phase = s.arg &&& argMask s.phase) :
    runPhase (withArg a s) = mapNext (withArg a) (runPhase s) := by
  cases hp : s.phase <;> rw [hp] at h <;> simp only [runPhase, withArg_phase, hp]
  case idle => rfl
  case cfgWait => exact rowCfgWait_withArg
  case rstIssue | armIssue | beepIssue =>
    exact awaitIdle_withArg <| issue_withArg rfl fun _ _ => rfl
  case revFlush | beepDrain | pktDrain => exact awaitIdle_withArg rfl
  case rstDrain => exact rowRstDrain_withArg h
  case holdIssue => exact rowHoldIssue_withArg
  case holdYield => exact rowHoldYield_withArg
  case dirIssue =>
    exact awaitIdle_withArg <| issue_withArg (directionFrame_congr _ h) fun _ _ => rfl
  case dirDrain => exact rowDirDrain_withArg h
  case beepSleep => exact rowBeepSleep_withArg
  case thrIssue =>
    exact awaitIdle_withArg <| issue_withArg (throttleFrame_congr h) fun _ _ => rfl
  case pktIssue => exact rowPktIssue_withArg h

/-! ## The whole step and what it shows -/

/-- The frame of a step is that of its row, so it depends on the bits the row reads only. -/
theorem issuedFrame_withArg (h : a &&& argMask s.phase = s.arg &&& argMask s.phase) :
    issuedFrame (withArg a s) = issuedFrame s := by
  unfold issuedFrame
  rw [withArg_env, withArg_phase, withArg_params, withArg_arg,
    windowOver_withArg]
  cases hp : s.phase
  case dirIssue => rw [directionFrame_congr s.params (hp ▸ h)]
  case thrIssue => rw [throttleFrame_congr (hp ▸ h)]
  case pktIssue => rw [packetFrame_congr (hp ▸ h)]
  all_goals rfl

/-- The environment does not see `arg`. -/
theorem advance_withArg (a : Arg) (s t : State) :
    advance (withArg a s) (withArg a t) = mapNext (withArg a) (advance s t) := by
  have hf : nextFlight (withArg a s) (withArg a t) (nextMove s.env)
      = nextFlight s t (nextMove s.env) := rfl
  unfold advance
  rw [withArg_env, hf]
  split <;> rfl

theorem step_withArg (hp : s.phase ≠ .idle) (hr : s.env.rst = false)
    (h : a &&& argMask s.phase = s.arg &&& argMask s.phase) :
    step (withArg a s) = mapNext (withArg a) (step s) := by
  have hb : blockStep (withArg a s) = mapNext (withArg a) (blockStep s) := by
    rw [blockStep_of_running (s := withArg a s) hr hp, blockStep_of_running hr hp,
      runPhase_withArg h]
  unfold step cycle
  rw [withArg_params, hb]
  split
  · cases blockStep s with
    | next t => exact advance_withArg a s t
    | fault f => rfl
    | refused r => rfl
  · rfl

theorem outputs_withArg (h : a &&& argMask s.phase = s.arg &&& argMask s.phase) :
    outputs (withArg a s) = outputs s := by
  rw [outputs, issuedFrame_withArg h]
  rfl

theorem stepEvents_withArg (h : a &&& argMask s.phase = s.arg &&& argMask s.phase) :
    stepEvents (withArg a s) = stepEvents s := by
  rw [stepEvents, issuedFrame_withArg h]
  rfl

end Rows

/-- Settles O4: `exec_congr_clearIgnored` for the accept step, the `withArg` lemmas for a running
command. -/
theorem ignoredArgumentBitsChangeNothing : Obligations.IgnoredArgumentBitsChangeNothing :=
  ⟨fun _ _ _ _ hij hp h => exec_congr_clearIgnored hij hp h,
    fun _ _ hp hr h => ⟨step_withArg hp hr h, outputs_withArg h, stepEvents_withArg h⟩⟩

end Sys2Proof.Machine
end

section
/-! The fields and the number of an encoded frame (30 R70, 40 R101). -/

namespace Sys2Proof.Machine

theorem framePayload_encodeFrame (q : Payload) (b : Bool) : framePayload (encodeFrame q b) = q := by
  apply BitVec.eq_of_getLsbD_eq
  intro k hk
  have h4 : ¬ 5 + k < 4 := by omega
  have h1 : ¬ 5 + k - 4 < 1 := by omega
  have hq : 5 + k - 4 - 1 = k := by omega
  rw [framePayload, BitVec.getLsbD_extractLsb', encodeFrame_bit, if_neg h4, packetBits_bit,
    if_neg h1, hq]
  simp [hk]

theorem frameTelemetry_encodeFrame (q : Payload) (b : Bool) :
    frameTelemetry (encodeFrame q b) = b := by
  rw [frameTelemetry, encodeFrame_bit, if_neg (by decide), packetBits_bit]
  simp

theorem toNat_packetBits (q : Payload) (b : Bool) :
    (packetBits q b).toNat = q.toNat * 2 + b.toNat := by
  have h : (packetBits q b).toNat = q.toNat <<< 1 ||| (BitVec.ofBool b).toNat :=
    BitVec.toNat_append q (BitVec.ofBool b)
  rw [h, ← Nat.shiftLeft_add_eq_or_of_lt (BitVec.ofBool b).isLt, Nat.shiftLeft_eq,
    BitVec.toNat_ofBool]

theorem toNat_encodeFrame (q : Payload) (b : Bool) :
    (encodeFrame q b).toNat =
      (q.toNat * 2 + b.toNat) * 16 + (computeChecksum (packetBits q b)).toNat := by
  have h : (encodeFrame q b).toNat =
      (packetBits q b).toNat <<< 4 ||| (computeChecksum (packetBits q b)).toNat :=
    BitVec.toNat_append (packetBits q b) (computeChecksum (packetBits q b))
  rw [h, ← Nat.shiftLeft_add_eq_or_of_lt (computeChecksum _).isLt, Nat.shiftLeft_eq,
    toNat_packetBits]

/-- A frame determines its packet, since the fields read the packet back. -/
theorem encodeFrame_injective {q r : Payload} {b c : Bool} (h : encodeFrame q b = encodeFrame r c) :
    q = r ∧ b = c := by
  have hq := congrArg framePayload h
  have hb := congrArg frameTelemetry h
  rw [framePayload_encodeFrame, framePayload_encodeFrame] at hq
  rw [frameTelemetry_encodeFrame, frameTelemetry_encodeFrame] at hb
  exact ⟨hq, hb⟩

/-- Settles O8: each field is read back by its lemma, and the fields determine the packet. -/
theorem frameHasPayloadTelemetryChecksum : Obligations.FrameHasPayloadTelemetryChecksum := by
  refine ⟨fun q b => ?_, fun _ _ _ _ h => encodeFrame_injective h, by decide, by decide, by decide⟩
  have hsum : (encodeFrame q b).extractLsb' 0 4
      = computeChecksum ((encodeFrame q b).extractLsb' 4 12) := by
    rw [upperBits_encodeFrame]
    exact frameChecksum_encodeFrame q b
  exact ⟨framePayload_encodeFrame q b, frameTelemetry_encodeFrame q b, hsum,
    toNat_encodeFrame q b, toNat_packetBits q b, validFrame_encodeFrame q b⟩

end Sys2Proof.Machine
end

section
/-! The decoder after the encoder, and the example words of 30 R84. -/

namespace Sys2Proof

/-- The decoder reads back every command, its ignored bits included (30 R78 to R80). -/
@[simp] theorem decode_encode (i : Instr) : decode (encode i) = i := by
  rw [decode, opOf_encode, argOf_encode]
  cases i with
  | reservedOp0 | sendThrottle | beep | reservedOp7 => rfl
  | install | init | setReversed | sendPacket => simp [decodeFields, Instr.op]

/-- A word that a command encodes to decodes to it. -/
theorem encode_and_decode {i : Instr} {w : CmdWord} (h : encode i = w) :
    encode i = w ∧ decode w = i :=
  ⟨h, h ▸ decode_encode i⟩

/-- Settles O2: each line is assembled and its command encoded by evaluation; that the word decodes
to the command is `decode_encode`. -/
theorem exampleWordsDecode : Obligations.ExampleWordsDecode := by
  intro p hp
  have hcmd : assemble p (.sendCmd .escInfo none none) = some (.sendPacket 6 false true 0) := by
    rw [← hp]
    rfl
  exact ⟨⟨rfl, encode_and_decode (by decide)⟩, ⟨rfl, encode_and_decode (by decide)⟩,
    ⟨rfl, encode_and_decode (by decide)⟩, ⟨rfl, encode_and_decode (by decide)⟩,
    ⟨rfl, encode_and_decode (by decide)⟩, ⟨rfl, encode_and_decode (by decide)⟩,
    ⟨hcmd, encode_and_decode (by decide)⟩⟩

end Sys2Proof
end

section
/-! The fold of the checksum in its two forms, and what one flipped bit does to it (40 R100). -/

namespace Sys2Proof.Machine

/-- The fold as the low nibble of two shifts. -/
theorem computeChecksum_eq_shifts (v : BitVec 12) :
    computeChecksum v = (v ^^^ v >>> 4 ^^^ v >>> 8).extractLsb' 0 4 := by
  apply BitVec.eq_of_getLsbD_eq
  intro k hk
  simp [computeChecksum, hk]

/-- A single bit folds onto the bit of its place in the nibble. -/
theorem computeChecksum_oneBit : ∀ i < 12, computeChecksum (1#12 <<< i) = 1#4 <<< (i % 4) := by
  decide

theorem computeChecksum_flip (v : BitVec 12) {i : Nat} (hi : i < 12) :
    computeChecksum (v ^^^ 1#12 <<< i) = computeChecksum v ^^^ 1#4 <<< (i % 4) := by
  rw [computeChecksum_xor, computeChecksum_oneBit i hi]

/-- Every single-bit error shows: the flipped checksum bit is not zero. -/
theorem computeChecksum_flip_ne (v : BitVec 12) {i : Nat} (hi : i < 12) :
    computeChecksum (v ^^^ 1#12 <<< i) ≠ computeChecksum v := by
  have hbit : ∀ i < 12, 1#4 <<< (i % 4) ≠ 0#4 := by decide
  intro h
  have hxor : computeChecksum v ^^^ 1#4 <<< (i % 4) = computeChecksum v ^^^ 0#4 := by
    rw [← computeChecksum_flip v hi, h, BitVec.xor_zero]
  exact hbit i hi ((BitVec.xor_right_inj _).mp hxor)

/-- Settles O7: the second form of the fold is its definition, the flips follow from linearity, and
the corner cases are evaluated. -/
theorem checksumFoldsThreeNibbles : Obligations.ChecksumFoldsThreeNibbles :=
  ⟨fun v => ⟨computeChecksum_eq_shifts v, rfl⟩, by decide, by decide, computeChecksum_xor,
    fun v _ hi => computeChecksum_flip v hi, by decide⟩

end Sys2Proof.Machine
end

section
/-! The fields of the three symbols, and the train entry by entry (40 R103, R104). -/

namespace Sys2Proof.Machine

/-! ## The symbols -/

/-- The fields of a word are what its sub-intervals show. -/
theorem symbolIntervals_eq_iff {p : Params} {w : SymbolWord} {d e : Nat} {l m : Bool} :
    symbolIntervals p w = [(d, l), (e, m)] ↔
      symDur0 p w = d ∧ symLvl0 p w = l ∧ symDur1 p w = e ∧ symLvl1 p w = m := by
  simp [symbolIntervals, and_assoc]

/-- A symbol of the look-up table is high, then low, for the times of its bit. -/
theorem symbolFor_fields {p : Params} (h : p.legal = true) (b : Bool) :
    symDur0 p (symbolFor p b) = (if b then p.t1h else p.t0h) ∧ symLvl0 p (symbolFor p b) = true
    ∧ symDur1 p (symbolFor p b) = (if b then p.t1l else p.t0l)
    ∧ symLvl1 p (symbolFor p b) = false :=
  symbolIntervals_eq_iff.mp (symbolIntervals_symbolFor h b)

theorem symPause_fields {p : Params} (h : p.legal = true) :
    symDur0 p (symPause p) = p.pauseTicks ∧ symLvl0 p (symPause p) = false
    ∧ symDur1 p (symPause p) = 0 ∧ symLvl1 p (symPause p) = false :=
  symbolIntervals_eq_iff.mp (symbolIntervals_symPause h)

theorem symbolFor_lasts_bitPeriod {p : Params} (h : p.legal = true) (b : Bool) :
    symDur0 p (symbolFor p b) + symDur1 p (symbolFor p b) = p.ticksPerBit := by
  obtain ⟨h1, h0, -⟩ := legal_durations h
  obtain ⟨hd0, -, hd1, -⟩ := symbolFor_fields h b
  rw [hd0, hd1]
  cases b
  · exact h0
  · exact h1

/-- Settles O9: `symbolFor_fields` for each symbol; the words at the defaults are evaluated. -/
theorem lookUpTableSymbols : Obligations.LookUpTableSymbols :=
  ⟨fun _ h => ⟨symbolFor_fields h true, symbolFor_fields h false, symbolFor_lasts_bitPeriod h⟩,
    by decide, by decide⟩

/-- Distinct symbols tell the two bit values apart. -/
theorem symbolFor_inj {p : Params} (hne : symOne p ≠ symZero p) {b c : Bool} :
    symbolFor p b = symbolFor p c ↔ b = c := by
  cases b <;> cases c <;> simp [symbolFor, hne, hne.symm]

/-! ## The train -/

/-- Entry `i` of a train is the symbol of frame bit `15 - i`. -/
theorem toPulseTrain_bit (p : Params) (f : Frame) {i : Nat} (hi : i < 16) :
    (toPulseTrain p f)[i] = symbolFor p (f.getLsbD (15 - i)) := by
  interval_cases i <;> rfl

theorem toPulseTrain_pause (p : Params) (f : Frame) : (toPulseTrain p f)[16] = symPause p := rfl

theorem toPulseTrain_bit_eq_symOne {p : Params} (hne : symOne p ≠ symZero p) (f : Frame) {i : Nat}
    (hi : i < 16) : (toPulseTrain p f)[i] = symOne p ↔ f.getLsbD (15 - i) = true := by
  rw [toPulseTrain_bit p f hi]
  exact symbolFor_inj hne (c := true)

/-- Frame bit `k` is read back from entry `15 - k`. -/
theorem toPulseTrain_injective {p : Params} (hne : symOne p ≠ symZero p) {f g : Frame}
    (h : toPulseTrain p f = toPulseTrain p g) : f = g := by
  apply BitVec.eq_of_getLsbD_eq
  intro k hk
  have hi : 15 - k < 16 := by omega
  have hk' : 15 - (15 - k) = k := by omega
  have hbit : (toPulseTrain p f)[15 - k] = (toPulseTrain p g)[15 - k] := by rw [h]
  rwa [toPulseTrain_bit p f hi, toPulseTrain_bit p g hi, symbolFor_inj hne, hk'] at hbit

theorem symOne_ne_symZero_default : symOne Params.default ≠ symZero Params.default := by decide

/-- Settles O10: each entry by its lemma, and the entries determine the frame. -/
theorem trainHoldsFrameBitsThenPause : Obligations.TrainHoldsFrameBitsThenPause := by
  refine ⟨fun p f => ⟨fun i => toPulseTrain_bit p f i.isLt, toPulseTrain_pause p f, ?_,
      fun h => symPause_fields h, fun hne i => toPulseTrain_bit_eq_symOne hne f i.isLt⟩,
    fun _ _ _ hne h => toPulseTrain_injective hne h, symOne_ne_symZero_default, by decide, ?_⟩
  · simp
  · decide

end Sys2Proof.Machine
end

section
/-! The reference decoder after the encoder, and what a flipped frame bit does to the train (40 R107, R108). -/

namespace Sys2Proof.Machine

theorem decodeFrame_encodeFrame (q : Payload) (b : Bool) :
    decodeFrame (encodeFrame q b) = (q, b, true) := by
  rw [decodeFrame, framePayload_encodeFrame, frameTelemetry_encodeFrame, validFrame_encodeFrame]

theorem default_legal : Params.default.legal = true := by decide

/-- A flip changes the bit it names and no other. -/
theorem getLsbD_flip_ne_iff (f : Frame) {j k : Nat} (hk : k < 16) :
    (f ^^^ 1#16 <<< j).getLsbD k ≠ f.getLsbD k ↔ k = j := by
  have hbit : (1#16 <<< j).getLsbD k = (decide (j < 16) && decide (j = k)) :=
    BitVec.getLsbD_twoPow j k
  rw [BitVec.getLsbD_xor, hbit]
  by_cases hj : j = k
  · simp [hj, hk]
  · simp [hj, Ne.symm hj]

/-- A flipped frame bit changes the one entry that holds its symbol. -/
theorem toPulseTrain_flip_ne_iff {p : Params} (hne : symOne p ≠ symZero p) (f : Frame) {j : Nat}
    (hj : j < 16) (i : Fin 17) :
    (toPulseTrain p (f ^^^ 1#16 <<< j))[i] ≠ (toPulseTrain p f)[i] ↔ i.val = 15 - j := by
  by_cases hi : i.val < 16
  · have hk : 15 - i.val < 16 := by omega
    rw [Fin.getElem_fin, Fin.getElem_fin, toPulseTrain_bit p _ hi, toPulseTrain_bit p f hi, Ne,
      symbolFor_inj hne, ← Ne, getLsbD_flip_ne_iff f hk]
    omega
  · have h16 : i = 16 := by omega
    subst h16
    exact iff_of_false (fun h => h rfl) (by simp; omega)

/-- Settles O11: the round trip and the flips by their lemmas, the train's shape from the fields of
its symbols. -/
theorem encoderRoundTripAndErrorDetection : Obligations.EncoderRoundTripAndErrorDetection := by
  refine ⟨decodeFrame_encodeFrame,
    fun v _ hi => ⟨computeChecksum_flip v hi, computeChecksum_flip_ne v hi⟩,
    fun _ _ h => congrArg computeChecksum h, fun f => ?_,
    fun f j i => toPulseTrain_flip_ne_iff symOne_ne_symZero_default f j.isLt i⟩
  obtain ⟨hd0, -, hd1, -⟩ := symPause_fields default_legal
  refine ⟨Vector.length_toList, fun i => ?_, hd0, hd1⟩
  rw [toPulseTrain_bit _ f i.isLt]
  exact symbolFor_lasts_bitPeriod default_legal _

end Sys2Proof.Machine
end

section
/-! The level on the wire while a train is emitted (40 R105, 60 R212 item 3). -/

namespace Sys2Proof.Machine

theorem frameBits_length (f : Frame) : (frameBits f).length = 16 := rfl

theorem frameBits_getElem (f : Frame) {i : Nat} (hi : i < (frameBits f).length) :
    (frameBits f)[i] = f.getLsbD (15 - i) := by
  rw [frameBits_length] at hi
  interval_cases i <;> rfl

/-- The pause and whatever follows it are low. -/
theorem levelAt_pause (d k : Nat) : levelAt [(d, false), (0, false)] k = false := by
  simp [levelAt]

theorem wireLevel_bit {p : Params} (f : Frame) {i j : Nat} (hi : i < 16) (hj : j < p.ticksPerBit) :
    wireLevel p f (i * p.ticksPerBit + j) =
      decide (j < (if f.getLsbD (15 - i) then p.t1h else p.t0h)) := by
  have hT : 0 < p.ticksPerBit := by omega
  have hdiv : (i * p.ticksPerBit + j) / p.ticksPerBit = i := by
    rw [Nat.mul_comm, Nat.mul_add_div hT, Nat.div_eq_of_lt hj, Nat.add_zero]
  have hmod : (i * p.ticksPerBit + j) % p.ticksPerBit = j := by
    rw [Nat.mul_add_mod_self_right, Nat.mod_eq_of_lt hj]
  have hk : i * p.ticksPerBit + j < 16 * p.ticksPerBit := by
    rwa [← Nat.div_lt_iff_lt_mul hT, hdiv]
  rw [wireLevel, if_pos hk, hdiv, hmod]

theorem wireLevel_pause {p : Params} (f : Frame) {k : Nat} (hk : 16 * p.ticksPerBit ≤ k) :
    wireLevel p f k = false := by
  rw [wireLevel, if_neg (Nat.not_lt.mpr hk)]

/-- What is emitted from the buffer of a train is the waveform of its frame. -/
theorem levelAt_train {p : Params} (h : p.legal = true) (f : Frame) (k : Nat) :
    levelAt (bufferIntervals p (toPulseTrain p f)) k = wireLevel p f k := by
  obtain ⟨h1, -, hpos, -⟩ := legal_durations h
  have hT : 0 < p.ticksPerBit := by omega
  have hin : k / p.ticksPerBit < (frameBits f).length ↔ k < 16 * p.ticksPerBit :=
    Nat.div_lt_iff_lt_mul hT
  rw [bufferIntervals_train h, levelAt_bits h]
  split
  case isTrue hk => rw [frameBits_getElem, wireLevel, if_pos (hin.mp hk)]
  case isFalse hk => rw [levelAt_pause, wireLevel_pause f (Nat.not_lt.mp (mt hin.mpr hk))]

theorem wireNow_of_flight {s : State} {pos : Nat} (h : s.env.flight = some pos) :
    wireNow s = levelAt (bufferIntervals s.params s.pbuf) pos := by
  rw [wireNow, h]

/-- Settles O12: `levelAt_train`, with the waveform read in a bit and in the pause. -/
theorem emittedTrainIsTheFrameWaveform : Obligations.EmittedTrainIsTheFrameWaveform := by
  intro p f h
  refine ⟨levelAt_train h f, fun i j hi hj => ?_, fun k hk => ?_, fun s pos hp hb hfl => ?_⟩
  · rw [levelAt_train h, wireLevel_bit f hi hj]
  · rw [levelAt_train h, wireLevel_pause f hk]
  · rw [wireNow_of_flight hfl, hp, hb, levelAt_train h]

end Sys2Proof.Machine
end

section
/-! The accept step: the dispatch table row by row, and the reserved operations (41 R131, R145). -/

namespace Sys2Proof.Machine

/-! ## The conditions of the dispatch table, in the operation code and the argument -/

theorem isReserved_iff_op {i : Instr} : isReserved i = true ↔ i.op = 0 ∨ i.op = 7 := by
  cases i <;> simp [isReserved, Instr.op]

theorem isInstall_iff_op {i : Instr} : isInstall i = true ↔ i.op = 1 := by
  cases i <;> simp [isInstall, Instr.op]

theorem isThrottleOutOfRange_iff_op {p : Params} {i : Instr} :
    isThrottleOutOfRange p i = true ↔
      i.op = 3 ∧ ¬ (p.thrMin ≤ i.arg.toNat ∧ i.arg.toNat ≤ p.thrMax) := by
  cases i with
  | sendThrottle v =>
    simp [isThrottleOutOfRange, throttleInRange, Instr.op, Instr.arg, imp_iff_not_or]
  | _ => simp [isThrottleOutOfRange, Instr.op]

/-- Rows 1 to 5 of 41 R131 as the table states them. -/
theorem rejection_eq_rows (p : Params) (l : Lifecycle) (i : Instr) :
    rejection p l i =
      if l = .failed then some .configErr
      else if i.op = 0 ∨ i.op = 7 then some .invalidArg
      else if i.op = 3 ∧ ¬ (p.thrMin ≤ i.arg.toNat ∧ i.arg.toNat ≤ p.thrMax) then
        some .invalidArg
      else if i.op = 1 ∧ (l = .installed ∨ l = .armed) then some .invalidArg
      else if i.op ≠ 1 ∧ l = .uninstalled then some .txErr
      else none := by
  simp only [rejection, ← Bool.not_eq_true, isReserved_iff_op, isThrottleOutOfRange_iff_op,
    isInstall_iff_op]

/-- A command that row 6 starts runs its first-step actions. -/
theorem exec_started {i : Instr} {s : State} (hp : s.phase = .idle)
    (h : rejection s.params s.lifecycle i = none) :
    exec i s = .next (startOf i { s with arg := i.arg, rspValid := false }) := by
  rw [exec_eq_command, command_started hp h]

/-- Settles O14: `rejection_eq_rows` picks the row, `exec_rejected` and `exec_started` give its
effect. -/
theorem acceptStepFollowsDispatchTable : Obligations.AcceptStepFollowsDispatchTable := by
  refine fun i s hp => ⟨fun h1 => exec_rejected hp ?_, fun h1 h2 => exec_rejected hp ?_,
    fun h1 h2 h3 => exec_rejected hp ?_, fun h1 h2 h3 h4 => exec_rejected hp ?_,
    fun h1 h2 h3 h4 h5 => exec_rejected hp ?_, fun h1 h2 h3 h4 h5 => ?_⟩
  · rw [rejection_eq_rows, if_pos h1]
  · rw [rejection_eq_rows, if_neg h1, if_pos h2]
  · rw [rejection_eq_rows, if_neg h1, if_neg h2, if_pos h3]
  · rw [rejection_eq_rows, if_neg h1, if_neg h2, if_neg h3, if_pos h4]
  · rw [rejection_eq_rows, if_neg h1, if_neg h2, if_neg h3, if_neg h4, if_pos h5]
  · have hrun := exec_started (i := i) hp (by
      rw [rejection_eq_rows, if_neg h1, if_neg h2, if_neg h3, if_neg h4, if_neg h5])
    cases i with
    | install pin channel x => exact ⟨_, _, fitted_of_lt, fitted_of_lt, hrun⟩
    | init | sendThrottle | setReversed | beep | sendPacket => exact hrun
    | reservedOp0 => exact h2 (.inl rfl)
    | reservedOp7 => exact h2 (.inr rfl)

/-! ## The reserved operations -/

theorem rejection_of_reserved {i : Instr} (p : Params) (l : Lifecycle) (h : isReserved i = true) :
    rejection p l i = some (if l = .failed then .configErr else .invalidArg) := by
  rw [rejection, if_pos h, apply_ite some]

/-- Completing in `IDLE` writes the response registers only. -/
theorem complete_of_idle {st : Status} {s : State} (hp : s.phase = .idle) :
    complete st s = { s with rspValid := true, rspStatus := st } := by
  rw [complete, ← hp]

theorem exec_of_reserved {i : Instr} {s : State} (hi : isReserved i = true)
    (hp : s.phase = .idle) :
    exec i s = .next { s with
      arg := i.arg, rspValid := true,
      rspStatus := if s.lifecycle = .failed then .configErr else .invalidArg } := by
  rw [exec_rejected hp (rejection_of_reserved _ _ hi),
    complete_of_idle (s := { s with arg := i.arg }) hp]

/-- Settles O16: `exec_of_reserved` for both operations; `0x00000` encodes the first. -/
theorem reservedOperationsAnswerInvalidArg : Obligations.ReservedOperationsAnswerInvalidArg :=
  ⟨decode_encode (.reservedOp0 0), fun _ _ hp =>
    ⟨exec_of_reserved rfl hp, exec_of_reserved rfl hp⟩⟩

end Sys2Proof.Machine
end

section
/-! The encoder after the decoder, the fields of a decoded word, the words of the assembler, and the meaning of payloads (30 R71 to R83). -/

namespace Sys2Proof

/-! ## Decoding one operation code -/

theorem decodeFields_one (a : Arg) :
    decodeFields 1 a = .install (argPin a) (argChannel a) (a.extractLsb' 11 5) := rfl
theorem decodeFields_two (a : Arg) :
    decodeFields 2 a = .init (argFlag a) (a.extractLsb' 1 15) := rfl
theorem decodeFields_four (a : Arg) :
    decodeFields 4 a = .setReversed (argFlag a) (a.extractLsb' 1 15) := rfl
theorem decodeFields_six (a : Arg) :
    decodeFields 6 a =
      .sendPacket (argPayload a) (argTelemetry a) (argBlock a) (a.extractLsb' 13 3) := rfl

theorem op_cases : ∀ op : BitVec 3,
    op = 0 ∨ op = 1 ∨ op = 2 ∨ op = 3 ∨ op = 4 ∨ op = 5 ∨ op = 6 ∨ op = 7 := by
  decide

theorem decodeFields_op (op : BitVec 3) (a : Arg) : (decodeFields op a).op = op := by
  obtain rfl | rfl | rfl | rfl | rfl | rfl | rfl | rfl := op_cases op <;> rfl

/-! ## The argument put together again from its fields -/

/-- A one-bit field is the bit at its place. -/
theorem getLsbD_ofBool_of_lt_one {b : Bool} {k : Nat} (hk : k < 1) :
    (BitVec.ofBool b).getLsbD k = b := by
  obtain rfl : k = 0 := by omega
  cases b <;> rfl

theorem installArg_fields (a : Arg) :
    (Instr.install (argPin a) (argChannel a) (a.extractLsb' 11 5)).arg = a := by
  apply BitVec.eq_of_getLsbD_eq
  intro k hk
  rw [installArg_bit]
  split
  case isTrue h => simp [argPin, h]
  case isFalse h8 =>
    split
    case isTrue h => simp [argChannel, h, Nat.add_sub_cancel' (Nat.not_lt.mp h8)]
    case isFalse h3 =>
      have hk' : k - 8 - 3 < 5 := by omega
      have he : 11 + (k - 8 - 3) = k := by omega
      simp [hk', he]

theorem flagArg_fields (a : Arg) : (Instr.init (argFlag a) (a.extractLsb' 1 15)).arg = a := by
  apply BitVec.eq_of_getLsbD_eq
  intro k hk
  rw [initArg_bit]
  split
  case isTrue h =>
    rw [getLsbD_ofBool_of_lt_one h, argFlag, Nat.lt_one_iff.mp h]
  case isFalse h1 =>
    have hk' : k - 1 < 15 := by omega
    have he : 1 + (k - 1) = k := by omega
    simp [hk', he]

theorem packetArg_fields (a : Arg) :
    (Instr.sendPacket (argPayload a) (argTelemetry a) (argBlock a) (a.extractLsb' 13 3)).arg
      = a := by
  apply BitVec.eq_of_getLsbD_eq
  intro k hk
  rw [sendPacketArg_bit]
  split
  case isTrue h => simp [argPayload, h]
  case isFalse h11 =>
    split
    case isTrue h =>
      have he : k = 11 := by omega
      rw [getLsbD_ofBool_of_lt_one h, argTelemetry, he]
    case isFalse h1 =>
      split
      case isTrue h =>
        have he : k = 12 := by omega
        rw [getLsbD_ofBool_of_lt_one h, argBlock, he]
      case isFalse h2 =>
        have hk' : k - 11 - 1 - 1 < 3 := by omega
        have he : 13 + (k - 11 - 1 - 1) = k := by omega
        simp [hk', he]

theorem decodeFields_arg (op : BitVec 3) (a : Arg) : (decodeFields op a).arg = a := by
  obtain rfl | rfl | rfl | rfl | rfl | rfl | rfl | rfl := op_cases op
  case inr.inl => exact installArg_fields a
  case inr.inr.inl => exact flagArg_fields a
  case inr.inr.inr.inr.inl => exact flagArg_fields a
  case inr.inr.inr.inr.inr.inr.inl => exact packetArg_fields a
  all_goals rfl

@[simp] theorem decode_arg (w : CmdWord) : (decode w).arg = argOf w := decodeFields_arg _ _

@[simp] theorem decode_op (w : CmdWord) : (decode w).op = opOf w := decodeFields_op _ _

/-- The encoder gives back every word, its ignored bits included. -/
@[simp] theorem encode_decode (w : CmdWord) : encode (decode w) = w :=
  cmdWord_ext (by rw [opOf_encode, decode_op]) (by rw [argOf_encode, decode_arg])

/-- Settles O1: `decode_encode` and `encode_decode`. -/
theorem decodeAndEncodeAreInverse : Obligations.DecodeAndEncodeAreInverse :=
  ⟨decode_encode, encode_decode⟩

/-! ## The fields as bits of the word -/

/-- A field of the argument is the same field of the word. -/
theorem extractLsb'_argOf (w : CmdWord) {i n : Nat} (h : i + n ≤ 16) :
    (argOf w).extractLsb' i n = w.extractLsb' i n := by
  apply BitVec.eq_of_getLsbD_eq
  intro k hk
  have : i + k < 16 := by omega
  simp [argOf, hk, this]

theorem getLsbD_argOf (w : CmdWord) {i : Nat} (h : i < 16) :
    (argOf w).getLsbD i = w.getLsbD i := by
  simp [argOf, h]

theorem decode_of_op {w : CmdWord} {op : BitVec 3} (h : opOf w = op) :
    decode w = decodeFields op (argOf w) :=
  h ▸ rfl

/-- Settles O3: `decode_of_op` selects the command, and its fields are read in the word. -/
theorem commandFieldsAreArgumentBits : Obligations.CommandFieldsAreArgumentBits := by
  intro w
  refine ⟨⟨rfl, rfl⟩, fun h => ⟨_, decode_of_op h⟩, fun h => ⟨(argOf w).extractLsb' 11 5, ?_⟩,
    fun h => ⟨(argOf w).extractLsb' 1 15, ?_⟩, fun h => decode_of_op h,
    fun h => ⟨(argOf w).extractLsb' 1 15, ?_⟩, fun h => ⟨_, decode_of_op h⟩,
    fun h => ⟨(argOf w).extractLsb' 13 3, ?_⟩, fun h => ⟨_, decode_of_op h⟩⟩
  · rw [decode_of_op h, decodeFields_one, argPin, argChannel, extractLsb'_argOf w (by decide),
      extractLsb'_argOf w (by decide)]
  · rw [decode_of_op h, decodeFields_two, argFlag, getLsbD_argOf w (by decide)]
  · rw [decode_of_op h, decodeFields_four, argFlag, getLsbD_argOf w (by decide)]
  · rw [decode_of_op h, decodeFields_six, argPayload, argTelemetry, argBlock,
      extractLsb'_argOf w (by decide), getLsbD_argOf w (by decide), getLsbD_argOf w (by decide)]

/-! ## The assembler -/

/-- Two words side by side are the number with the left one above the right one. -/
theorem toNat_append_eq_add {m n : Nat} (x : BitVec m) (y : BitVec n) :
    (x ++ y).toNat = x.toNat * 2 ^ n + y.toNat := by
  rw [BitVec.toNat_append, ← Nat.shiftLeft_add_eq_or_of_lt y.isLt, Nat.shiftLeft_eq]

theorem toNat_encode (i : Instr) : (encode i).toNat = i.op.toNat * 2 ^ 16 + i.arg.toNat :=
  toNat_append_eq_add i.op i.arg

theorem toNat_installArg (pin : BitVec 8) (ch : BitVec 3) :
    (Instr.install pin ch 0).arg.toNat = ch.toNat * 2 ^ 8 + pin.toNat := by
  have h : (Instr.install pin ch 0).arg.toNat = ((0#5 ++ ch) ++ pin).toNat := rfl
  rw [h, toNat_append_eq_add, toNat_append_eq_add]
  simp

theorem toNat_flagArg (b : Bool) : (Instr.init b 0).arg.toNat = b.toNat := by
  cases b <;> rfl

theorem toNat_packetArg (q : Payload) (t b : Bool) :
    (Instr.sendPacket q t b 0).arg.toNat = b.toNat * 2 ^ 12 + t.toNat * 2 ^ 11 + q.toNat := by
  have h : (Instr.sendPacket q t b 0).arg.toNat =
      (((0#3 ++ BitVec.ofBool b) ++ BitVec.ofBool t) ++ q).toNat := rfl
  rw [h, toNat_append_eq_add, toNat_append_eq_add, toNat_append_eq_add]
  simp only [BitVec.toNat_ofBool, BitVec.toNat_ofNat]
  omega

theorem toNat_beq_one {n : Nat} (h : isBit n = true) : (n == 1).toNat = n := by
  have hn : n < 2 := of_decide_eq_true h
  interval_cases n <;> rfl

/-- An optional one-bit operand, or its default. -/
theorem toNat_optionalBit {o : Option Nat} (d : Bool) (h : o.all isBit = true) :
    (o.elim d (· == 1)).toNat = o.getD d.toNat := by
  cases o with
  | none => rfl
  | some n => exact toNat_beq_one h

theorem CommandCode.code_lt (c : CommandCode) : c.code < 2 ^ 11 := by
  cases c <;> decide

theorem assemble_isSome (p : Params) (a : Asm) : (assemble p a).isSome = a.wellFormed := by
  unfold assemble
  split
  case isTrue h => exact h.symm
  case isFalse h => exact (eq_false_of_ne_true h).symm

theorem assemble_eq_some {p : Params} {a : Asm} {i : Instr} (h : assemble p a = some i) :
    a.wellFormed = true := by
  rw [← assemble_isSome p a, h, Option.isSome_some]

theorem assemble_sendCmd {p : Params} {c : CommandCode} {t b : Option Nat}
    (h : (Asm.sendCmd c t b).wellFormed = true) :
    assemble p (.sendCmd c t b) = some (.sendPacket (BitVec.ofNat 11 c.code)
      (t.elim p.cmdTelemetry (· == 1)) (b.elim true (· == 1)) 0) := by
  unfold assemble
  rw [if_pos h]
  cases t <;> cases b <;> rfl

/-- The number of an assembled `SEND_PACKET` or `SEND_CMD`. -/
theorem toNat_encode_packet {q tn bn : Nat} {t b : Bool} (hq : q < 2 ^ 11) (ht : t.toNat = tn)
    (hb : b.toNat = bn) :
    (encode (.sendPacket (BitVec.ofNat 11 q) t b 0)).toNat =
      6 * 0x10000 + bn * 2 ^ 12 + tn * 2 ^ 11 + q := by
  rw [toNat_encode, toNat_packetArg, BitVec.toNat_ofNat, Nat.mod_eq_of_lt hq, ht, hb,
    ← Nat.add_assoc, ← Nat.add_assoc]
  rfl

theorem toNat_encode_install {pin ch : Nat} (hp : pin < 2 ^ 8) (hc : ch < 2 ^ 3) :
    (encode (.install (BitVec.ofNat 8 pin) (BitVec.ofNat 3 ch) 0)).toNat =
      1 * 0x10000 + ch * 2 ^ 8 + pin := by
  rw [toNat_encode, toNat_installArg, BitVec.toNat_ofNat, BitVec.toNat_ofNat,
    Nat.mod_eq_of_lt hp, Nat.mod_eq_of_lt hc, ← Nat.add_assoc]
  rfl

theorem toNat_encode_of_assemble {p : Params} {a : Asm} {i j : Instr} {n : Nat}
    (hj : assemble p a = some j) (hi : assemble p a = some i) (hn : (encode i).toNat = n) :
    (encode j).toNat = n := by
  rw [Option.some.inj (hj.symm.trans hi), hn]

/-- Settles O5: the word is the operation code above the argument, the argument its operands side by
side. -/
theorem assemblerWordsHaveTheListedFields : Obligations.AssemblerWordsHaveTheListedFields := by
  refine fun p a => ⟨assemble_isSome p a, fun j h => ?_⟩
  have hw := assemble_eq_some h
  cases a with
  | install pin ch =>
    obtain ⟨hp, hc⟩ : pin < 2 ^ 8 ∧ ch < 2 ^ 3 := by simpa [Asm.wellFormed] using hw
    exact toNat_encode_of_assemble h (if_pos hw) (toNat_encode_install hp hc)
  | init wait =>
    refine toNat_encode_of_assemble h (i := .init (wait == 1) 0) (if_pos hw) ?_
    rw [toNat_encode, toNat_flagArg, toNat_beq_one hw]
    rfl
  | sendThrottle v =>
    refine toNat_encode_of_assemble h (i := .sendThrottle (BitVec.ofNat 16 v)) (if_pos hw) ?_
    have hv : (Instr.sendThrottle (BitVec.ofNat 16 v)).arg.toNat = v :=
      Nat.mod_eq_of_lt (of_decide_eq_true hw)
    rw [toNat_encode, hv]
    rfl
  | setReversed r =>
    refine toNat_encode_of_assemble h (i := .setReversed (r == 1) 0) (if_pos hw) ?_
    have hr : (Instr.setReversed (r == 1) 0).arg.toNat = r :=
      (toNat_flagArg _).trans (toNat_beq_one hw)
    rw [toNat_encode, hr]
    rfl
  | beep => exact toNat_encode_of_assemble (i := .beep 0) h (if_pos hw) (toNat_encode _)
  | sendPacket q t b =>
    obtain ⟨⟨hq, ht⟩, hb⟩ : (q < 2 ^ 11 ∧ isBit t = true) ∧ isBit b = true := by
      simpa [Asm.wellFormed] using hw
    exact toNat_encode_of_assemble h (if_pos hw)
      (toNat_encode_packet hq (toNat_beq_one ht) (toNat_beq_one hb))
  | sendCmd c t b =>
    obtain ⟨ht, hb⟩ : t.all isBit = true ∧ b.all isBit = true := by
      simpa [Asm.wellFormed] using hw
    exact toNat_encode_of_assemble h (assemble_sendCmd hw)
      (toNat_encode_packet c.code_lt (toNat_optionalBit _ ht) (toNat_optionalBit _ hb))

/-! ## What a payload means -/

theorem CommandCode.ofCode?_code (c : CommandCode) : CommandCode.ofCode? c.code = some c := by
  cases c <;> rfl

theorem CommandCode.ofCode?_eq_some {n : Nat} {c : CommandCode}
    (h : CommandCode.ofCode? n = some c) : c.code = n :=
  by
  unfold CommandCode.ofCode? at h
  exact beq_iff_eq.mp (List.find?_some h :)

/-- The codes of the table: 0 to 12 and 20 to 29. -/
theorem CommandCode.code_range (c : CommandCode) :
    c.code ≤ 12 ∨ (20 ≤ c.code ∧ c.code ≤ 29) := by
  cases c <;> decide

theorem CommandCode.exists_of_range {n : Nat} (h : n ≤ 12 ∨ (20 ≤ n ∧ n ≤ 29)) :
    ∃ c, CommandCode.ofCode? n = some c := by
  obtain h | ⟨h20, h29⟩ := h <;> interval_cases n <;> exact ⟨_, rfl⟩

theorem payloadKind_of_code {q : Payload} {c : CommandCode} (h : c.code = q.toNat) :
    payloadKind q = .command c := by
  rw [payloadKind, ← h, CommandCode.ofCode?_code]

/-- A payload outside the table is classified by its range. -/
theorem payloadKind_of_no_code {q : Payload} (h : ¬ (q.toNat ≤ 12 ∨ (20 ≤ q.toNat ∧ q.toNat ≤ 29))) :
    payloadKind q =
      if q.toNat < 20 then .reservedUnused else if q.toNat < 48 then .unnamed else .throttle := by
  have hn : CommandCode.ofCode? q.toNat = none :=
    Option.eq_none_iff_forall_ne_some.mpr fun c hc =>
      h (CommandCode.ofCode?_eq_some hc ▸ c.code_range)
  rw [payloadKind, hn]

theorem payloadKind_ofNat_code (c : CommandCode) :
    payloadKind (BitVec.ofNat 11 c.code) = .command c :=
  payloadKind_of_code (by rw [BitVec.toNat_ofNat, Nat.mod_eq_of_lt c.code_lt])

/-- Settles O6: a payload with a code in the table has its name, any other is classified by its
range. -/
theorem payloadsAreClassifiedByValue : Obligations.PayloadsAreClassifiedByValue := by
  refine ⟨by decide, payloadKind_ofNat_code, fun q => ⟨fun h => ?_, fun h => ?_, fun h => ?_,
    fun h => ?_⟩⟩
  · rw [payloadKind_of_no_code (by omega), if_pos (by omega)]
  · rw [payloadKind_of_no_code (by omega), if_neg (by omega), if_pos (by omega)]
  · rw [payloadKind_of_no_code (by omega), if_neg (by omega), if_neg (by omega)]
  · obtain ⟨c, hc⟩ := CommandCode.exists_of_range h
    have hq := CommandCode.ofCode?_eq_some hc
    exact ⟨c, payloadKind_of_code hq, hq⟩

end Sys2Proof
end

section
/-! How long the train in the buffer lasts (40 R106). -/

namespace Sys2Proof.Machine

theorem ticksToEnd_pause {d : Nat} (h : 0 < d) :
    ticksToEnd [(d, false), (0, false)] = some d := by
  simp [ticksToEnd, Nat.ne_of_gt h]

/-- A train ends after its 16 bits and the pause, whatever the frame. -/
theorem ticksToEnd_train {p : Params} (h : p.legal = true) (f : Frame) :
    ticksToEnd (bufferIntervals p (toPulseTrain p f)) = some (trainTicks p) := by
  obtain ⟨-, -, -, -, -, -, hpause, -⟩ := legal_durations h
  rw [bufferIntervals_train h, ticksToEnd_bits h, ticksToEnd_pause hpause, frameBits_length]
  rfl

/-- Settles O13: `ticksToEnd_train`. -/
theorem trainLastsSixteenBitsAndPause : Obligations.TrainLastsSixteenBitsAndPause :=
  ⟨fun _ f h => ticksToEnd_train h f, ticksToEnd_train default_legal⟩

end Sys2Proof.Machine
end

section
/-! What a step answers: a next state, unless the configuration is illegal or the transmitter broke its contract (00 R6, 20 R50, R59). -/

namespace Sys2Proof.Machine

/-! ## The block's part -/

/-- A phase that issues in this step runs the `issue` of its frame, and the rest of its row leaves the
environment alone (41 R134, R146). -/
theorem runPhase_of_issued {s : State} {f : Frame} (h : issuedFrame s = some f) :
    ∃ rest, (∀ v, (rest v).env = v.env) ∧ runPhase s = issue f rest s := by
  obtain ⟨hr, hb, -⟩ := issuedFrame_eq_some h
  have hidle (progress : State → Result) : awaitIdle progress s = progress s :=
    awaitIdle_of_idle progress hb
  cases hph : s.phase <;> simp only [issuedFrame, hr, hb, hph, Bool.false_eq_true, if_false] at h
  case rstIssue | armIssue | dirIssue | beepIssue | thrIssue =>
    obtain rfl := Option.some.inj h
    simp only [runPhase, hph]
    refine ⟨_, ?_, hidle _⟩
    exact fun _ => rfl
  case pktIssue =>
    obtain rfl := Option.some.inj h
    simp only [runPhase, hph]
    refine ⟨_, ?_, hidle _⟩
    intro v
    split <;> rfl
  case holdIssue =>
    split at h
    · cases h
    · obtain rfl := Option.some.inj h
      simp only [runPhase, hph, rowHoldIssue, hidle, if_neg ‹_›]
      refine ⟨_, ?_, rfl⟩
      exact fun _ => rfl
  all_goals cases h

theorem blockStep_of_issued {s : State} {f : Frame} (h : issuedFrame s = some f) :
    ∃ rest, (∀ v, (rest v).env = v.env) ∧ blockStep s = issue f rest s := by
  have hph : s.phase ≠ .idle := by
    intro hi
    rw [issuedFrame_of_phase hi (by decide)] at h
    cases h
  rw [blockStep_of_running (issuedFrame_eq_some h).1 hph]
  exact runPhase_of_issued h

theorem awaitIdle_isNext {progress : State → Result} {s : State}
    (h : s.env.txBusy = false → ∃ t, progress s = .next t) :
    ∃ t, awaitIdle progress s = .next t := by
  obtain ⟨hb, he⟩ | ⟨-, -, he⟩ | ⟨-, -, he⟩ := awaitIdle_eq progress s
  · exact he ▸ h hb
  · exact ⟨_, he⟩
  · exact ⟨_, he⟩

theorem rowCfgWait_isNext (s : State) : ∃ t, rowCfgWait s = .next t := by
  unfold rowCfgWait
  split
  · split <;> exact ⟨_, rfl⟩
  · exact ⟨_, rfl⟩

/-- Only an issue can keep a row from answering a next state. -/
theorem runPhase_isNext {s : State} (hr : s.env.rst = false) (h : issuedFrame s = none) :
    ∃ t, runPhase s = .next t := by
  cases hph : s.phase <;> simp only [runPhase, hph]
  case idle | holdYield | beepSleep => exact ⟨_, rfl⟩
  case cfgWait => exact rowCfgWait_isNext s
  case rstDrain | revFlush | dirDrain | beepDrain | pktDrain =>
    exact awaitIdle_isNext fun _ => ⟨_, rfl⟩
  case rstIssue | armIssue | dirIssue | beepIssue | thrIssue | pktIssue =>
    refine awaitIdle_isNext fun hb => ?_
    simp [issuedFrame, hr, hb, hph] at h
  case holdIssue =>
    refine awaitIdle_isNext fun hb => ?_
    have hw : windowOver s = true := by simpa [issuedFrame, hr, hb, hph] using h
    exact ⟨_, if_pos hw⟩

theorem exec_isNext_of_idle (i : Instr) {s : State} (hp : s.phase = .idle) :
    ∃ t, exec i s = .next t := by
  cases hrej : rejection s.params s.lifecycle i with
  | some st => exact ⟨_, exec_rejected hp hrej⟩
  | none => exact ⟨_, exec_started hp hrej⟩

theorem blockStep_isNext {s : State} (h : issuedFrame s = none) : ∃ t, blockStep s = .next t := by
  cases hr : s.env.rst
  · by_cases hp : s.phase = .idle
    · cases hc : s.env.cmd with
      | none => exact blockStep_of_noCommand hr hc ▸ runPhase_isNext hr h
      | some w => exact blockStep_of_command hr hc ▸ exec_isNext_of_idle (decode w) hp
    · exact blockStep_of_running hr hp ▸ runPhase_isNext hr h
  · exact ⟨_, blockStep_of_reset hr⟩

/-- The block's part answers a next state, or meets a train in flight where it issues (20 R59). -/
theorem blockStep_next_or_fault (s : State) :
    (∃ t, blockStep s = .next t)
    ∨ (blockStep s = .fault .pulseBufferOverwrite ∧ (issuedFrame s).isSome = true
      ∧ s.env.txBusy = false ∧ s.env.flight.isSome = true) := by
  cases hf : issuedFrame s with
  | none => exact .inl (blockStep_isNext hf)
  | some f =>
    obtain ⟨rest, -, hb⟩ := blockStep_of_issued hf
    rw [hb]
    cases hfl : s.env.flight with
    | none => exact .inl (issue_isNext f rest hfl)
    | some pos => exact .inr ⟨by simp [issue, hfl], rfl, (issuedFrame_eq_some hf).2.1, rfl⟩

/-! ## The environment's part -/

/-- The transmitter runs past the buffer only where the buffer has no end (20 R50). -/
theorem emit_error {p : Params} {b : PulseBuffer} {pos n : Nat} {f : Fault}
    (h : emit p b pos n = .error f) :
    f = .pulseBufferReadOutOfRange ∧ ticksToEnd (bufferIntervals p b) = none := by
  unfold emit at h
  split at h
  · cases h
  · split at h
    · cases h
    · cases h
      exact ⟨rfl, ‹_›⟩

theorem advance_fault {s u : State} {f : Fault} (h : advance s u = .fault f) :
    s.env.flight.isSome = true ∧ f = .pulseBufferReadOutOfRange
    ∧ ticksToEnd (bufferIntervals s.params s.pbuf) = none := by
  unfold advance at h
  split at h
  · cases h
  · rename_i g hg
    obtain rfl := Host.Outcome.fault.inj h
    unfold nextFlight at hg
    split at hg <;> rename_i hfl
    · cases hg
    · exact ⟨by rw [hfl]; rfl, emit_error hg⟩

theorem advance_ne_refused (s u : State) (r : Refusal) : advance s u ≠ .refused r := by
  unfold advance
  split <;> exact nofun

/-! ## The whole step -/

theorem step_of_illegal {s : State} (h : s.params.legal = false) :
    step s = .refused .illegalConfiguration := by
  simp [step, cycle, h]

theorem step_of_blockStep {s u : State} (hl : s.params.legal = true) (h : blockStep s = .next u) :
    step s = advance s u := by
  simp [step, cycle, hl, h]

theorem step_of_blockFault {s : State} {f : Fault} (hl : s.params.legal = true)
    (h : blockStep s = .fault f) : step s = .fault f := by
  simp [step, cycle, hl, h]

theorem step_refused {s : State} {r : Refusal} (h : step s = .refused r) :
    s.params.legal = false ∧ r = .illegalConfiguration := by
  cases hl : s.params.legal
  · rw [step_of_illegal hl] at h
    exact ⟨rfl, (Host.Outcome.refused.inj h).symm⟩
  · obtain ⟨u, hb⟩ | ⟨hb, -⟩ := blockStep_next_or_fault s
    · rw [step_of_blockStep hl hb] at h
      exact absurd h (advance_ne_refused s u r)
    · rw [step_of_blockFault hl hb] at h
      cases h

theorem step_fault {s : State} {f : Fault} (h : step s = .fault f) :
    s.env.flight.isSome = true
    ∧ (f = .pulseBufferOverwrite ∧ s.env.txBusy = false ∧ (issuedFrame s).isSome = true
      ∨ f = .pulseBufferReadOutOfRange ∧ ticksToEnd (bufferIntervals s.params s.pbuf) = none) := by
  cases hl : s.params.legal
  · rw [step_of_illegal hl] at h
    cases h
  · obtain ⟨u, hb⟩ | ⟨hb, hf, htx, hfl⟩ := blockStep_next_or_fault s
    · rw [step_of_blockStep hl hb] at h
      obtain ⟨hfl, hf⟩ := advance_fault h
      exact ⟨hfl, .inr hf⟩
    · rw [step_of_blockFault hl hb] at h
      exact ⟨hfl, .inl ⟨(Host.Outcome.fault.inj h).symm, htx, hf⟩⟩

/-- Settles O49: `step_fault`. -/
theorem faultsNeedABrokenTransmitter : Obligations.FaultsNeedABrokenTransmitter :=
  fun _ _ h => step_fault h

/-! ## Legal configurations -/

section Legal
variable (p : Params)

theorem pauseAndDurations_iff :
    (p.pauseConsistent && p.durationsFit) = true ↔
      p.pauseTicks = p.pauseBits * p.ticksPerBit ∧ 0 < p.pauseTicks ∧ p.pauseTicks < 2 ^ p.durW
      ∧ p.t1h < 2 ^ p.durW ∧ p.t1l < 2 ^ p.durW ∧ p.t0h < 2 ^ p.durW ∧ p.t0l < 2 ^ p.durW := by
  simp [Params.pauseConsistent, Params.durationsFit, and_assoc]

theorem windowsFit_iff :
    p.windowsFit = true ↔
      p.armTicks < 2 ^ (p.tickW - 1) ∧ p.revHoldTicks < 2 ^ (p.tickW - 1)
      ∧ p.beepSleepTicks < 2 ^ (p.tickW - 1)
      ∧ ∀ limit, p.txTimeout = some limit → limit < 2 ^ (p.tickW - 1) := by
  unfold Params.windowsFit
  cases p.txTimeout <;> simp [and_assoc]

/-- Legality as the constraints of 00 R6 state it. -/
theorem legal_iff :
    p.legal = true ↔
      (p.t1h + p.t1l = p.ticksPerBit ∧ p.t0h + p.t0l = p.ticksPerBit)
      ∧ (0 < p.t1h ∧ 0 < p.t0h ∧ 0 < p.t1l ∧ 0 < p.t0l)
      ∧ (p.pauseTicks = p.pauseBits * p.ticksPerBit ∧ 0 < p.pauseTicks ∧ p.pauseTicks < 2 ^ p.durW
        ∧ p.t1h < 2 ^ p.durW ∧ p.t1l < 2 ^ p.durW ∧ p.t0h < 2 ^ p.durW ∧ p.t0l < 2 ^ p.durW)
      ∧ (p.thrMin ≤ p.thrMax ∧ p.thrMax ≤ 2047)
      ∧ (p.cmdBeep ≤ 2047 ∧ p.cmdDirNormal ≤ 2047 ∧ p.cmdDirReversed ≤ 2047)
      ∧ (1 ≤ p.resetFrames ∧ 1 ≤ p.dirRepeats ∧ 1 ≤ p.yieldTicks)
      ∧ (p.armTicks < 2 ^ (p.tickW - 1) ∧ p.revHoldTicks < 2 ^ (p.tickW - 1)
        ∧ p.beepSleepTicks < 2 ^ (p.tickW - 1)
        ∧ ∀ limit, p.txTimeout = some limit → limit < 2 ^ (p.tickW - 1)) := by
  rw [← pauseAndDurations_iff, ← windowsFit_iff]
  simp [Params.legal, Params.bitPeriodsAgree, Params.symbolTimesPositive,
    Params.throttleBoundsOrdered, Params.commandCodesFit, Params.countsPositive, and_assoc]

end Legal

/-- Settles O48: `legal_iff`, and `step_refused` with its converse. -/
theorem onlyIllegalConfigurationsAreRefused : Obligations.OnlyIllegalConfigurationsAreRefused :=
  ⟨fun p => ⟨legal_iff p, decide_eq_true_iff⟩,
    fun _ => ⟨step_of_illegal, fun _ h => step_refused h⟩⟩

end Sys2Proof.Machine
end

section
/-! Who writes what: for each register, the rows of the table that write it, and with what (10 R21 to R32, 41 R146). -/

namespace Sys2Proof.Machine

section Row
variable {s u : State}

/-! ## The parameters and the environment -/

theorem tableRow_params (h : TableRow s u) : u.params = s.params := by
  cases h <;> rfl

/-- Only an accepted start reaches the environment (10 R41). -/
theorem blockStep_env (h : blockStep s = .next u) :
    u.env = { s.env with flight :=
      if (issuedFrame s).isSome && !s.env.startErr then some 0 else s.env.flight } := by
  cases hf : issuedFrame s with
  | none =>
    cases blockStep_tableRow h with
    | rstSent f hf' | armSent f hf' | holdSent f hf' | dirSent f hf' | beepSent f hf'
    | throttleSent f hf' | packetSent f hf' | packetDone f hf' => cases hf.symm.trans hf'
    | _ => rfl
  | some f =>
    obtain ⟨rest, henv, hb⟩ := blockStep_of_issued hf
    obtain ⟨-, ⟨he, rfl⟩ | ⟨he, rfl⟩⟩ := issue_next (hb.symm.trans h)
    · rw [he]
      rfl
    · rw [henv, he]
      rfl

theorem accepted_of_busy (h : s.phase ≠ .idle) : accepted s = none := by
  simp [accepted, h]

theorem phase_ne_idle_of_waitsOnTransmitter (h : s.phase.waitsOnTransmitter = true) :
    s.phase ≠ .idle := by
  intro hi
  rw [hi] at h
  cases h

/-- A reset step fires no other row (70 R230). -/
theorem tableRow_of_reset (hr : s.env.rst = true) (h : TableRow s u) : u = resetBlock s := by
  cases h with
  | reset => rfl
  | reject _ _ ha | startInstall _ _ _ ha | startInit _ _ ha | startThrottle _ ha
  | startReverse _ _ ha | startBeep _ ha | startPacket _ _ _ _ ha =>
    cases hr.symm.trans (accepted_eq_some ha).1
  | refused _ hf | rstSent _ hf | armSent _ hf | holdSent _ hf | dirSent _ hf | beepSent _ hf
  | throttleSent _ hf | packetSent _ hf | packetDone _ hf =>
    cases hr.symm.trans (issuedFrame_eq_some hf).1
  | idle hr' | wait hr' | timeout hr' | cfgOk hr' | cfgFail hr' | rstNext hr' | rstHold hr'
  | rstArm hr' | holdArmed hr' | holdReverse hr' | yielded hr' | flushed hr' | dirNext hr'
  | dirDone hr' | beepDrained hr' | beepDone hr' | packetDrained hr' =>
    cases hr.symm.trans hr'

/-! ## The phase -/

/-- The next-phase column of 41 R146. -/
def nextPhases : Phase → List Phase
  | .idle => [.idle, .cfgWait, .rstIssue, .revFlush, .beepIssue, .thrIssue, .pktIssue]
  | .cfgWait => [.cfgWait, .idle]
  | .rstIssue => [.rstIssue, .rstDrain, .idle]
  | .rstDrain => [.rstDrain, .rstIssue, .holdIssue, .armIssue, .idle]
  | .armIssue => [.armIssue, .idle]
  | .holdIssue => [.holdIssue, .holdYield, .dirIssue, .idle]
  | .holdYield => [.holdYield, .holdIssue]
  | .revFlush => [.revFlush, .holdIssue, .idle]
  | .dirIssue => [.dirIssue, .dirDrain, .idle]
  | .dirDrain => [.dirDrain, .dirIssue, .idle]
  | .beepIssue => [.beepIssue, .beepDrain, .idle]
  | .beepDrain => [.beepDrain, .beepSleep, .idle]
  | .beepSleep => [.beepSleep, .idle]
  | .thrIssue => [.thrIssue, .idle]
  | .pktIssue => [.pktIssue, .pktDrain, .idle]
  | .pktDrain => [.pktDrain, .idle]

theorem self_mem_nextPhases (ph : Phase) : ph ∈ nextPhases ph := by
  cases ph <;> decide

/-- Every wait on the transmitter can abort. -/
theorem idle_mem_nextPhases {ph : Phase} (h : ph.waitsOnTransmitter = true) :
    .idle ∈ nextPhases ph := by
  revert h
  cases ph <;> decide

theorem tableRow_phase (hr : s.env.rst = false) (h : TableRow s u) :
    u.phase ∈ nextPhases s.phase := by
  cases h with
  | reset hr' => cases hr.symm.trans hr'
  | idle | wait => exact self_mem_nextPhases s.phase
  | timeout _ hw => exact idle_mem_nextPhases hw
  | refused f hf => exact idle_mem_nextPhases (issuedFrame_eq_some hf).2.2
  | reject _ _ ha | startInstall _ _ _ ha | startInit _ _ ha | startThrottle _ ha
  | startReverse _ _ ha | startBeep _ ha | startPacket _ _ _ _ ha =>
    simp [nextPhases, (accepted_eq_some ha).2.1]
  | cfgOk _ hph | cfgFail _ hph | rstNext _ hph | rstHold _ hph | rstArm _ hph
  | holdArmed _ hph | holdReverse _ hph | yielded _ hph | flushed _ hph | dirNext _ hph
  | dirDone _ hph | beepDrained _ hph | beepDone _ hph | packetDrained _ hph => simp [nextPhases, hph]
  | rstSent _ _ _ _ hph | armSent _ _ _ _ hph | holdSent _ _ _ _ hph | dirSent _ _ _ _ hph
  | beepSent _ _ _ _ hph | throttleSent _ _ _ _ hph | packetSent _ _ _ _ hph
  | packetDone _ _ _ _ hph => simp [nextPhases, hph]

/-- A row that neither accepts nor moves on is a wait (41 R147 item 4). -/
theorem tableRow_of_same_phase (hr : s.env.rst = false) (ha : accepted s = none)
    (hu : u.phase = s.phase) (h : TableRow s u) : u = hold s := by
  cases h with
  | reset hr' => cases hr.symm.trans hr'
  | idle | wait => rfl
  | timeout _ hw => exact absurd hu.symm (phase_ne_idle_of_waitsOnTransmitter hw)
  | refused f hf =>
    exact absurd hu.symm (phase_ne_idle_of_waitsOnTransmitter (issuedFrame_eq_some hf).2.2)
  | reject _ _ ha' | startInstall _ _ _ ha' | startInit _ _ ha' | startThrottle _ ha'
  | startReverse _ _ ha' | startBeep _ ha' | startPacket _ _ _ _ ha' =>
    rw [ha] at ha'; cases ha'
  | cfgOk _ hph | cfgFail _ hph | rstNext _ hph | rstHold _ hph | rstArm _ hph
  | holdArmed _ hph | holdReverse _ hph | yielded _ hph | flushed _ hph | dirNext _ hph
  | dirDone _ hph | beepDrained _ hph | beepDone _ hph | packetDrained _ hph =>
    cases hu.trans hph
  | rstSent _ _ _ _ hph | armSent _ _ _ _ hph | holdSent _ _ _ _ hph | dirSent _ _ _ _ hph
  | beepSent _ _ _ _ hph | throttleSent _ _ _ _ hph | packetSent _ _ _ _ hph
  | packetDone _ _ _ _ hph => cases hu.trans hph

/-! ## The response -/

/-- A row completes a command and raises the response, or lowers it and keeps its status. -/
theorem tableRow_response (hr : s.env.rst = false) (h : TableRow s u) :
    (u.rspValid = true ∧ u.phase = .idle ∧ (s.phase ≠ .idle ∨ (accepted s).isSome = true))
    ∨ (u.rspValid = false ∧ u.rspStatus = s.rspStatus
      ∧ (u.phase = .idle → s.phase = .idle ∧ accepted s = none)) := by
  have hrun {ph : Phase} (hph : s.phase = ph) (hne : ph ≠ .idle) :
      s.phase ≠ .idle ∨ (accepted s).isSome = true := .inl (hph ▸ hne)
  cases h with
  | reset hr' => cases hr.symm.trans hr'
  | idle _ hph hc => exact .inr ⟨rfl, rfl, fun _ => ⟨hph, by simp [accepted, hr, hph, hc]⟩⟩
  | wait _ hph => exact .inr ⟨rfl, rfl, fun hi => absurd hi hph⟩
  | reject _ _ ha => exact .inl ⟨rfl, rfl, .inr (by rw [ha]; rfl)⟩
  | timeout _ hw => exact .inl ⟨rfl, rfl, .inl (phase_ne_idle_of_waitsOnTransmitter hw)⟩
  | refused f hf =>
    exact .inl ⟨rfl, rfl, .inl
      (phase_ne_idle_of_waitsOnTransmitter (issuedFrame_eq_some hf).2.2)⟩
  | cfgOk _ hph | cfgFail _ hph | holdArmed _ hph | dirDone _ hph | beepDone _ hph
  | packetDrained _ hph => exact .inl ⟨rfl, rfl, hrun hph (by decide)⟩
  | armSent _ _ _ _ hph | throttleSent _ _ _ _ hph | packetDone _ _ _ _ hph =>
    exact .inl ⟨rfl, rfl, hrun hph (by decide)⟩
  | _ => exact .inr ⟨rfl, rfl, nofun⟩

/-! ## The lifecycle -/

/-- Every row that changes `lifecycle` (10 R21). -/
theorem tableRow_lifecycle (hr : s.env.rst = false) (h : TableRow s u) :
    u.lifecycle = s.lifecycle
    ∨ (s.phase = .cfgWait ∧ s.env.cfgAck = true ∧ s.env.cfgErr = false
      ∧ u.lifecycle = .installed ∧ Ended .ok u)
    ∨ (s.phase = .cfgWait ∧ s.env.cfgAck = true ∧ s.env.cfgErr = true ∧ u.lifecycle = .failed
      ∧ Ended .configErr u)
    ∨ ((s.phase = .armIssue ∨ (s.phase = .holdIssue ∧ s.ctx = .arm)) ∧ u.lifecycle = .armed
      ∧ Ended .ok u)
    ∨ (s.phase.ofInitOrReverse = true ∧ u.lifecycle = .installed ∧ Ended .txErr u) := by
  have habort (hu : u.lifecycle = if s.phase.ofInitOrReverse then .installed else s.lifecycle) :
      u.lifecycle = s.lifecycle ∨ (s.phase.ofInitOrReverse = true ∧ u.lifecycle = .installed) := by
    cases hp : s.phase.ofInitOrReverse
    · exact .inl (by rw [hu, hp]; rfl)
    · exact .inr ⟨rfl, by rw [hu, hp]; rfl⟩
  cases h with
  | reset hr' => cases hr.symm.trans hr'
  | cfgOk _ hph ha he => exact .inr (.inl ⟨hph, ha, he, rfl, rfl, rfl, rfl⟩)
  | cfgFail _ hph ha he => exact .inr (.inr (.inl ⟨hph, ha, he, rfl, rfl, rfl, rfl⟩))
  | armSent _ _ _ _ hph =>
    exact .inr (.inr (.inr (.inl ⟨.inl hph, rfl, rfl, rfl, rfl⟩)))
  | holdArmed _ hph _ _ hc =>
    exact .inr (.inr (.inr (.inl ⟨.inr ⟨hph, hc⟩, rfl, rfl, rfl, rfl⟩)))
  | timeout | refused =>
    obtain hu | ⟨hp, hu⟩ := habort rfl
    · exact .inl hu
    · exact .inr (.inr (.inr (.inr ⟨hp, hu, rfl, rfl, rfl⟩)))
  | _ => exact .inl rfl

/-! ## The direction, the pin, the channel and the argument -/

theorem tableRow_dirRev (hr : s.env.rst = false) (h : TableRow s u) :
    u.dirRev = s.dirRev ∨ (s.phase = .dirDrain ∧ u.dirRev = argFlag s.arg ∧ Ended .ok u) := by
  cases h with
  | reset hr' => cases hr.symm.trans hr'
  | dirDone _ hph => exact .inr ⟨hph, rfl, rfl, rfl, rfl⟩
  | _ => exact .inl rfl

theorem tableRow_pinAndChannel (hr : s.env.rst = false) (h : TableRow s u) :
    (u.cfgPin = s.cfgPin ∧ u.cfgChannel = s.cfgChannel)
    ∨ ∃ pin ch x, accepted s = some (.install pin ch x) ∧ u.phase = .cfgWait
      ∧ u.cfgPin = fitted s.params.pinW pin.toNat
      ∧ u.cfgChannel = fitted s.params.chW ch.toNat := by
  cases h with
  | reset hr' => cases hr.symm.trans hr'
  | startInstall pin ch x ha => exact .inr ⟨pin, ch, x, ha, rfl, rfl, rfl⟩
  | _ => exact .inl ⟨rfl, rfl⟩

/-- Acceptance alone writes `arg` (10 R27). -/
theorem tableRow_arg (hr : s.env.rst = false) (ha : accepted s = none) (h : TableRow s u) :
    u.arg = s.arg := by
  cases h with
  | reset hr' => cases hr.symm.trans hr'
  | reject _ _ ha' | startInstall _ _ _ ha' | startInit _ _ ha' | startThrottle _ ha'
  | startReverse _ _ ha' | startBeep _ ha' | startPacket _ _ _ _ ha' => cases ha.symm.trans ha'
  | _ => rfl

theorem exec_arg {i : Instr} (hp : s.phase = .idle) (h : exec i s = .next u) : u.arg = i.arg := by
  cases hrej : rejection s.params s.lifecycle i with
  | some st =>
    obtain rfl := Host.Outcome.next.inj ((exec_rejected hp hrej).symm.trans h)
    rfl
  | none =>
    obtain rfl := Host.Outcome.next.inj ((exec_started hp hrej).symm.trans h)
    cases i <;> rfl

theorem blockStep_arg {i : Instr} (ha : accepted s = some i) (h : blockStep s = .next u) :
    u.arg = i.arg := by
  obtain ⟨hr, hp, w, hw, rfl⟩ := accepted_eq_some ha
  exact exec_arg hp ((blockStep_of_command hr hw).symm.trans h)

/-! ## The hold window's owner, the time stamps and the counter -/

theorem tableRow_t0AndCtx (hr : s.env.rst = false) (h : TableRow s u) :
    (u.t0 = s.t0 ∧ u.ctx = s.ctx)
    ∨ ((s.phase = .rstDrain ∧ u.ctx = .arm ∨ s.phase = .revFlush ∧ u.ctx = .rev)
      ∧ u.phase = .holdIssue ∧ u.t0 = s.env.now) := by
  cases h with
  | reset hr' => cases hr.symm.trans hr'
  | rstHold _ hph => exact .inr ⟨.inl ⟨hph, rfl⟩, rfl, rfl⟩
  | flushed _ hph => exact .inr ⟨.inr ⟨hph, rfl⟩, rfl, rfl⟩
  | _ => exact .inl ⟨rfl, rfl⟩

theorem tableRow_ty (hr : s.env.rst = false) (h : TableRow s u) :
    u.ty = s.ty ∨ (u.ty = s.env.now ∧ (u.phase = .holdYield ∨ u.phase = .beepSleep)) := by
  cases h with
  | reset hr' => cases hr.symm.trans hr'
  | holdSent => exact .inr ⟨rfl, .inl rfl⟩
  | beepDrained => exact .inr ⟨rfl, .inr rfl⟩
  | _ => exact .inl rfl

theorem tableRow_tw (hr : s.env.rst = false) (h : TableRow s u) :
    u.tw = s.tw ∨ (u.tw = s.env.now ∧ u.phase.waitsOnTransmitter = true) := by
  cases h with
  | reset hr' => cases hr.symm.trans hr'
  | startInit | startThrottle | startReverse | startBeep | startPacket | rstSent | rstNext
  | rstHold | rstArm | holdReverse | yielded | flushed | dirSent | dirNext | beepSent
  | packetSent => exact .inr ⟨rfl, rfl⟩
  | _ => exact .inl rfl

theorem tableRow_cnt (hr : s.env.rst = false) (h : TableRow s u) :
    u.cnt = s.cnt ∨ (u.cnt = 0 ∧ (u.phase = .rstIssue ∨ u.phase = .dirIssue))
    ∨ (u.cnt = cntSucc s ∧ (s.phase = .rstDrain ∨ s.phase = .dirDrain)) := by
  cases h with
  | reset hr' => cases hr.symm.trans hr'
  | startInit => exact .inr (.inl ⟨rfl, .inl rfl⟩)
  | holdReverse => exact .inr (.inl ⟨rfl, .inr rfl⟩)
  | rstNext _ hph | rstHold _ hph | rstArm _ hph => exact .inr (.inr ⟨rfl, .inl hph⟩)
  | dirNext _ hph | dirDone _ hph => exact .inr (.inr ⟨rfl, .inr hph⟩)
  | _ => exact .inl rfl

end Row

/-! ## The statements about a whole step -/

/-- The next state of a step is what a row left, with the environment moved. -/
theorem step_row {s t : State} (h : step s = .next t) :
    ∃ u e, TableRow s u ∧ t = { u with env := e } := by
  obtain ⟨-, u, fl, hrow, -, ht⟩ := step_tableRow h
  exact ⟨u, _, hrow, ht⟩

/-- Settles O37: `tableRow_params` and `blockStep_env`. -/
theorem blockLeavesTheEnvironmentAlone : Obligations.BlockLeavesTheEnvironmentAlone := by
  refine ⟨fun s t h => ⟨tableRow_params (blockStep_tableRow h), blockStep_env h⟩,
    fun s t h => ?_⟩
  obtain ⟨u, e, hrow, rfl⟩ := step_row h
  exact (tableRow_params hrow :)

theorem step_of_reset {s t : State} (h : step s = .next t) (hr : s.env.rst = true) :
    ∃ e, t = { resetBlock s with env := e } := by
  obtain ⟨u, e, hrow, rfl⟩ := step_row h
  obtain rfl := tableRow_of_reset hr hrow
  exact ⟨e, rfl⟩

/-- Settles O38: after a reset step every register is `resetBlock`'s. -/
theorem resetValuesOfEveryRegister : Obligations.ResetValuesOfEveryRegister := by
  refine ⟨⟨rfl, rfl, rfl, rfl, rfl, rfl, rfl, rfl, rfl, rfl, rfl, rfl, rfl⟩, fun s t h hr => ?_⟩
  obtain ⟨e, rfl⟩ := step_of_reset h hr
  exact ⟨rfl, rfl, rfl, rfl, rfl, rfl, rfl, rfl, rfl, rfl, rfl, rfl, rfl⟩

/-- Settles O30: `tableRow_lifecycle`, and the reset value. -/
theorem lifecycleChangesOnlyAsListed : Obligations.LifecycleChangesOnlyAsListed := by
  intro s t h hne
  cases hr : s.env.rst
  · obtain ⟨u, e, hrow, rfl⟩ := step_row h
    exact .inr ((tableRow_lifecycle hr hrow).resolve_left hne)
  · obtain ⟨e, rfl⟩ := step_of_reset h hr
    exact .inl ⟨rfl, rfl⟩

/-- Settles O32: one lemma per register. -/
theorem directionPinAndArgWriters : Obligations.DirectionPinAndArgWriters := by
  intro s t h hr
  obtain ⟨-, u, fl, hb, -, rfl⟩ := step_next h
  have hrow := blockStep_tableRow hb
  refine ⟨fun hne => (tableRow_dirRev hr hrow).resolve_left hne, fun hne => ?_,
    fun i hi => (blockStep_arg hi hb :), fun hi => (tableRow_arg hr hi hrow :)⟩
  refine (tableRow_pinAndChannel hr hrow).resolve_left fun ⟨hp, hc⟩ => ?_
  exact hne.elim (fun hn => hn hp) fun hn => hn hc

/-- Settles O33: one lemma per register. -/
theorem counterAndTimestampWriters : Obligations.CounterAndTimestampWriters := by
  intro s t h hr
  obtain ⟨u, e, hrow, rfl⟩ := step_row h
  refine ⟨fun hne => (tableRow_t0AndCtx hr hrow).resolve_left fun ⟨ht, hc⟩ => ?_,
    fun hne => (tableRow_ty hr hrow).resolve_left hne,
    fun hne => (tableRow_tw hr hrow).resolve_left hne,
    fun hne => (tableRow_cnt hr hrow).resolve_left hne⟩
  exact hne.elim (fun hn => hn ht) fun hn => hn hc

/-- Settles O34: the two cases of `tableRow_response`. -/
theorem responsePulsesOncePerCommand : Obligations.ResponsePulsesOncePerCommand := by
  intro s t h hr
  obtain ⟨u, e, hrow, rfl⟩ := step_row h
  obtain ⟨hv, hph, hend⟩ | ⟨hv, hst, hidle⟩ := tableRow_response hr hrow
  · exact ⟨iff_of_true hv ⟨hph, hend⟩, fun hf => absurd (hv.symm.trans hf) nofun⟩
  · refine ⟨iff_of_false (fun ht => absurd (hv.symm.trans ht) nofun) fun ⟨hph, hend⟩ => ?_,
      fun _ => hst⟩
    obtain ⟨hs, ha⟩ := hidle hph
    rw [ha] at hend
    exact hend.elim (fun hn => hn hs) nofun

/-- Settles O35: `tableRow_of_same_phase`. -/
theorem waitingStepsWriteNothing : Obligations.WaitingStepsWriteNothing := by
  intro s t h hr ha hph
  obtain ⟨u, e, hrow, rfl⟩ := step_row h
  obtain rfl := tableRow_of_same_phase hr ha (u := u) hph hrow
  rfl

/-- Settles O36: `tableRow_phase`, read phase by phase. -/
theorem phasesFollowTheTransitionTable : Obligations.PhasesFollowTheTransitionTable := by
  intro s t h hr
  obtain ⟨u, e, hrow, rfl⟩ := step_row h
  have hmem := tableRow_phase hr hrow
  generalize s.phase = ph at hmem ⊢
  cases ph <;> exact hmem

end Sys2Proof.Machine
end

section
/-! The invariant: what the running phase says of the block, what the transmitter does to a train in flight, and that every step keeps both (20 R57, 41 R146, 60 R212). -/

namespace Sys2Proof.Machine

/-! ## The block's part of the invariant, phase by phase -/

/-- `INSTALL` has succeeded and not failed since reset (10 R21). -/
def Lifecycle.runs (l : Lifecycle) : Prop :=
  l = .installed ∨ l = .armed

/-- What the invariant says of the block in each phase. -/
def PhaseFacts (s : State) : Prop :=
  match s.phase with
  | .idle => True
  | .cfgWait => s.lifecycle = .uninstalled
  | .rstIssue | .rstDrain => s.lifecycle.runs ∧ s.cnt < s.params.resetFrames
  | .armIssue => s.lifecycle.runs ∧ s.cnt = s.params.resetFrames ∧ argFlag s.arg = false
  | .holdIssue | .holdYield =>
    s.lifecycle.runs ∧ (s.ctx = .arm → s.cnt = s.params.resetFrames ∧ argFlag s.arg = true)
  | .dirIssue | .dirDrain => s.lifecycle.runs ∧ s.cnt < s.params.dirRepeats
  | .thrIssue =>
    s.lifecycle.runs ∧ s.params.thrMin ≤ s.arg.toNat ∧ s.arg.toNat ≤ s.params.thrMax
  | .pktDrain => s.lifecycle.runs ∧ argBlock s.arg = true
  | .revFlush | .beepIssue | .beepDrain | .beepSleep | .pktIssue => s.lifecycle.runs

/-- The facts of the current phase are the invariant's clauses about phases. -/
theorem phaseFacts_iff (s : State) :
    PhaseFacts s ↔
      (s.phase = .rstIssue ∨ s.phase = .rstDrain → s.cnt < s.params.resetFrames)
      ∧ (s.phase = .armIssue ∨ (s.phase.inHold = true ∧ s.ctx = .arm) →
          s.cnt = s.params.resetFrames)
      ∧ (s.phase = .dirIssue ∨ s.phase = .dirDrain → s.cnt < s.params.dirRepeats)
      ∧ (s.phase = .cfgWait → s.lifecycle = .uninstalled)
      ∧ (s.phase ≠ .idle → s.phase ≠ .cfgWait → s.lifecycle = .installed ∨ s.lifecycle = .armed)
      ∧ (s.phase = .thrIssue → s.params.thrMin ≤ s.arg.toNat ∧ s.arg.toNat ≤ s.params.thrMax)
      ∧ (s.phase.inHold = true → s.ctx = .arm → argFlag s.arg = true)
      ∧ (s.phase = .armIssue → argFlag s.arg = false)
      ∧ (s.phase = .pktDrain → argBlock s.arg = true) := by
  unfold PhaseFacts Lifecycle.runs
  cases s.phase <;> simp [Phase.inHold] <;> tauto

theorem Inv.phaseFacts {s : State} (h : Inv s) : PhaseFacts s :=
  (phaseFacts_iff s).mpr ⟨h.resetCount, h.armCount, h.dirCount, h.installing, h.running,
    h.throttleBounded, h.holdWaits, h.armNoWait, h.drainBlocks⟩

theorem phaseFacts_of_idle {s : State} (h : s.phase = .idle) : PhaseFacts s := by
  simp [PhaseFacts, h]

/-- The counts that the invariant compares `cnt` with are at least 1 (00 R6). -/
theorem legal_counts {p : Params} (h : p.legal = true) : 1 ≤ p.resetFrames ∧ 1 ≤ p.dirRepeats := by
  obtain ⟨-, -, -, -, -, ⟨hr, hd, -⟩, -⟩ := (legal_iff p).mp h
  exact ⟨hr, hd⟩

theorem moreResetFrames_iff {s : State} :
    moreResetFrames s = true ↔ s.cnt + 1 < s.params.resetFrames :=
  decide_eq_true_iff

theorem moreDirFrames_iff {s : State} :
    moreDirFrames s = true ↔ s.cnt + 1 < s.params.dirRepeats :=
  decide_eq_true_iff

section Row
variable {s u : State}

theorem cntSucc_of_rstDrain (hf : PhaseFacts s) (h : s.phase = .rstDrain) :
    s.cnt < s.params.resetFrames ∧ cntSucc s = s.cnt + 1 := by
  obtain ⟨-, hc⟩ : _ ∧ s.cnt < s.params.resetFrames := by simpa [PhaseFacts, h] using hf
  exact ⟨hc, cntSucc_eq (lt_max_of_lt_left hc)⟩

theorem cntSucc_of_dirDrain (hf : PhaseFacts s) (h : s.phase = .dirDrain) :
    s.cnt < s.params.dirRepeats ∧ cntSucc s = s.cnt + 1 := by
  obtain ⟨-, hc⟩ : _ ∧ s.cnt < s.params.dirRepeats := by simpa [PhaseFacts, h] using hf
  exact ⟨hc, cntSucc_eq (lt_max_of_lt_right hc)⟩

/-- All reset frames have finished when no more follow. -/
theorem cntSucc_of_lastResetFrame (hf : PhaseFacts s) (h : s.phase = .rstDrain)
    (hm : moreResetFrames s = false) : cntSucc s = s.params.resetFrames := by
  obtain ⟨hc, hs⟩ := cntSucc_of_rstDrain hf h
  have hn : ¬ s.cnt + 1 < s.params.resetFrames := of_decide_eq_false hm
  omega

theorem tableRow_phaseFacts (hl : s.params.legal = true) (hf : PhaseFacts s) (h : TableRow s u) :
    PhaseFacts u := by
  obtain ⟨hrst, hdir⟩ := legal_counts hl
  cases h with
  | reset | reject | timeout | refused | cfgOk | cfgFail | armSent | holdArmed | dirDone
  | beepDone | throttleSent | packetDone | packetDrained => exact phaseFacts_of_idle rfl
  | idle | wait => exact hf
  | startInstall _ _ _ _ hlc => exact hlc
  | startInit _ _ _ hlc => exact ⟨hlc, hrst⟩
  | startThrottle _ _ hlc hmin hmax => exact ⟨hlc, hmin, hmax⟩
  | startReverse _ _ _ hlc | startBeep _ _ hlc | startPacket _ _ _ _ _ hlc => exact hlc
  | rstSent _ _ _ _ hph | holdSent _ _ _ _ hph | dirSent _ _ _ _ hph | beepSent _ _ _ _ hph =>
    simp only [PhaseFacts, hph] at hf
    exact hf
  | packetSent _ _ _ _ hph hk =>
    simp only [PhaseFacts, hph] at hf
    exact ⟨hf, hk⟩
  | yielded _ hph | beepDrained _ hph =>
    simp only [PhaseFacts, hph] at hf
    exact hf
  | rstNext _ hph _ hm =>
    have hc := (cntSucc_of_rstDrain hf hph).2
    simp only [PhaseFacts, hph] at hf
    exact ⟨hf.1, hc ▸ moreResetFrames_iff.mp hm⟩
  | rstHold _ hph _ hm hw =>
    have hc := cntSucc_of_lastResetFrame hf hph hm
    simp only [PhaseFacts, hph] at hf
    exact ⟨hf.1, fun _ => ⟨hc, hw⟩⟩
  | rstArm _ hph _ hm hw =>
    have hc := cntSucc_of_lastResetFrame hf hph hm
    simp only [PhaseFacts, hph] at hf
    exact ⟨hf.1, hc, hw⟩
  | holdReverse _ hph =>
    simp only [PhaseFacts, hph] at hf
    exact ⟨hf.1, hdir⟩
  | flushed _ hph =>
    simp only [PhaseFacts, hph] at hf
    exact ⟨hf, nofun⟩
  | dirNext _ hph _ hm =>
    have hc := (cntSucc_of_dirDrain hf hph).2
    simp only [PhaseFacts, hph] at hf
    exact ⟨hf.1, hc ▸ moreDirFrames_iff.mp hm⟩

/-! ## The registers stay in their widths -/

theorem tableRow_cntFits (hf : PhaseFacts s)
    (hc : s.cnt ≤ max s.params.resetFrames s.params.dirRepeats) (h : TableRow s u) :
    u.cnt ≤ max u.params.resetFrames u.params.dirRepeats := by
  rw [tableRow_params h]
  cases hr : s.env.rst
  · obtain hu | ⟨hu, -⟩ | ⟨hu, hph | hph⟩ := tableRow_cnt hr h
    · exact hu ▸ hc
    · exact hu ▸ Nat.zero_le _
    · obtain ⟨hlt, hs⟩ := cntSucc_of_rstDrain hf hph
      omega
    · obtain ⟨hlt, hs⟩ := cntSucc_of_dirDrain hf hph
      omega
  · obtain rfl := tableRow_of_reset hr h
    exact Nat.zero_le _

theorem tableRow_pinFits (hp : s.cfgPin < 2 ^ s.params.pinW ∧ s.cfgChannel < 2 ^ s.params.chW)
    (h : TableRow s u) : u.cfgPin < 2 ^ u.params.pinW ∧ u.cfgChannel < 2 ^ u.params.chW := by
  rw [tableRow_params h]
  cases hr : s.env.rst
  · obtain ⟨hpin, hch⟩ | ⟨pin, ch, x, -, -, hpin, hch⟩ := tableRow_pinAndChannel hr h
    · rwa [hpin, hch]
    · rw [hpin, hch]
      exact ⟨fitted_lt _ _, fitted_lt _ _⟩
  · obtain rfl := tableRow_of_reset hr h
    exact ⟨Nat.two_pow_pos _, Nat.two_pow_pos _⟩

/-- Every time stamp is an old one, the tick count of the step, or 0. -/
theorem tableRow_stampsFit (hn : s.env.now < 2 ^ s.params.tickW)
    (ht : s.t0 < 2 ^ s.params.tickW ∧ s.ty < 2 ^ s.params.tickW ∧ s.tw < 2 ^ s.params.tickW)
    (h : TableRow s u) :
    u.t0 < 2 ^ u.params.tickW ∧ u.ty < 2 ^ u.params.tickW ∧ u.tw < 2 ^ u.params.tickW := by
  rw [tableRow_params h]
  obtain ⟨ht0, hty, htw⟩ := ht
  cases hr : s.env.rst
  · refine ⟨?_, ?_, ?_⟩
    · obtain ⟨hu, -⟩ | ⟨-, -, hu⟩ := tableRow_t0AndCtx hr h <;> rwa [hu]
    · obtain hu | ⟨hu, -⟩ := tableRow_ty hr h <;> rwa [hu]
    · obtain hu | ⟨hu, -⟩ := tableRow_tw hr h <;> rwa [hu]
  · obtain rfl := tableRow_of_reset hr h
    exact ⟨Nat.two_pow_pos _, Nat.two_pow_pos _, Nat.two_pow_pos _⟩

theorem tableRow_bufferFits (hb : ∀ i : Fin 17, s.pbuf[i] < 2 ^ s.params.entryWidth)
    (h : TableRow s u) (i : Fin 17) : u.pbuf[i] < 2 ^ u.params.entryWidth := by
  rw [tableRow_params h]
  obtain ⟨f, -, hu⟩ | ⟨-, hu⟩ := tableRow_pbuf h
  · rw [hu]
    exact toPulseTrain_lt s.params f i
  · rw [hu]
    exact hb i

end Row

/-! ## The transmitter -/

theorem Inv.flight_of_notBusy {s : State} (hs : Inv s) (h : s.env.txBusy = false) :
    s.env.flight = none := by
  rw [hs.busyIsFlight] at h
  exact Option.not_isSome_iff_eq_none.mp (Bool.eq_false_iff.mp h)

theorem Inv.busy_of_flight {s : State} (hs : Inv s) {pos : Nat} (h : s.env.flight = some pos) :
    s.env.txBusy = true := by
  rw [hs.busyIsFlight, h, Option.isSome_some]

/-- What is left of a train of which `pos` ticks are emitted, once `n` more are. -/
def flightAfter (p : Params) (pos n : Nat) : Option Nat :=
  if pos + n < trainTicks p then some (pos + n) else none

theorem emit_train {p : Params} (h : p.legal = true) (f : Frame) (pos n : Nat) :
    emit p (toPulseTrain p f) pos n = .ok (flightAfter p pos n) := by
  rw [emit, ticksToEnd_train h]
  rfl

theorem nextFlight_of_none {s : State} (u : State) (m : EnvMove) (h : s.env.flight = none) :
    nextFlight s u m = .ok u.env.flight := by
  rw [nextFlight, h]

/-- A train in flight goes on by the ticks emitted and ends with its last one (60 R212). -/
theorem Inv.nextFlight_of_some {s : State} (hs : Inv s) (u : State) (m : EnvMove) {pos : Nat}
    (h : s.env.flight = some pos) :
    nextFlight s u m = .ok (flightAfter s.params pos m.emitTicks) := by
  obtain ⟨⟨q, b, hb⟩, -⟩ := hs.flightTrain pos h
  rw [nextFlight, h, hb]
  exact emit_train hs.legal _ _ _

/-- In a lawful state the block's part answers a next state: a start meets no train in flight. -/
theorem Inv.blockStep_isNext {s : State} (hs : Inv s) : ∃ u, blockStep s = .next u := by
  obtain hu | ⟨-, -, hb, hfl⟩ := blockStep_next_or_fault s
  · exact hu
  · rw [hs.flight_of_notBusy hb] at hfl
    cases hfl

theorem Inv.step_isNext {s : State} (hs : Inv s) : ∃ t, step s = .next t := by
  obtain ⟨u, hb⟩ := hs.blockStep_isNext
  cases hfl : s.env.flight with
  | none => exact ⟨_, step_of_parts hs.legal hb (nextFlight_of_none u _ hfl)⟩
  | some pos => exact ⟨_, step_of_parts hs.legal hb (hs.nextFlight_of_some u _ hfl)⟩

/-- Settles O52: `Inv.step_isNext`. -/
theorem lawfulMachineAlwaysSteps : Obligations.LawfulMachineAlwaysSteps :=
  fun _ hs => hs.step_isNext

theorem trainTicks_pos {p : Params} (h : p.legal = true) : 0 < trainTicks p := by
  obtain ⟨-, -, -, -, -, -, hpause, -⟩ := legal_durations h
  exact Nat.add_pos_right _ hpause

/-- A train in flight after a step is whole in the buffer and has not ended. -/
theorem Inv.flightTrain_next {s u : State} {m : EnvMove} {pos : Nat} (hs : Inv s)
    (hb : blockStep s = .next u) (h : nextFlight s u m = .ok (some pos)) :
    (∃ q b, u.pbuf = toPulseTrain u.params (encodeFrame q b)) ∧ pos < trainTicks u.params := by
  have hrow := blockStep_tableRow hb
  rw [tableRow_params hrow]
  cases hfl : s.env.flight with
  | none =>
    have hu : u.env.flight = some pos := Except.ok.inj ((nextFlight_of_none u m hfl).symm.trans h)
    rw [blockStep_env hb] at hu
    obtain ⟨f, hf, hbuf⟩ | ⟨hn, -⟩ := tableRow_pbuf hrow
    · obtain ⟨-, -, q, b, rfl⟩ := issuedFrame_phase_and_packet hf
      obtain ⟨-, rfl⟩ : s.env.startErr = false ∧ 0 = pos := by simpa [hf, hfl] using hu
      exact ⟨⟨q, b, hbuf⟩, trainTicks_pos hs.legal⟩
    · simp [hn, hfl] at hu
  | some pos₀ =>
    have hafter : flightAfter s.params pos₀ m.emitTicks = some pos :=
      Except.ok.inj ((hs.nextFlight_of_some u m hfl).symm.trans h)
    obtain ⟨f, hf, -⟩ | ⟨-, hbuf⟩ := tableRow_pbuf hrow
    · cases (issuedFrame_of_busy (hs.busy_of_flight hfl)).symm.trans hf
    · refine ⟨hbuf ▸ (hs.flightTrain pos₀ hfl).1, ?_⟩
      unfold flightAfter at hafter
      split at hafter
      · obtain rfl := Option.some.inj hafter
        assumption
      · cases hafter

/-! ## Every step keeps the invariant -/

theorem nextNow_lt (p : Params) (now : Tick) (m : EnvMove) : nextNow p now m < 2 ^ p.tickW :=
  Nat.mod_lt _ (Nat.two_pow_pos _)

theorem nextCfgAck_eq_true {s u : State} {m : EnvMove} (h : nextCfgAck s u m = true) :
    cfgReq s = true ∧ u.phase = .cfgWait ∧ m.rst = false := by
  obtain ⟨⟨⟨-, hs⟩, hu⟩, hm⟩ : ((_ ∧ cfgReq s = true) ∧ u.phase = .cfgWait) ∧ m.rst = false := by
    simpa [nextCfgAck] using h
  exact ⟨hs, hu, hm⟩

theorem Inv.of_step {s t : State} (hs : Inv s) (h : step s = .next t) : Inv t := by
  obtain ⟨-, u, fl, hb, hfl, rfl⟩ := step_next h
  have hrow := blockStep_tableRow hb
  have hp := tableRow_params hrow
  obtain ⟨hnow, ht0, hty, htw⟩ := hs.ticksFit
  obtain ⟨hrst, harm, hdir, hinst, hrun, hthr, hwait, hno, hblk⟩ :=
    (phaseFacts_iff u).mp (tableRow_phaseFacts hs.legal hs.phaseFacts hrow)
  exact {
    legal := hp ▸ hs.legal
    ticksFit := ⟨hp ▸ nextNow_lt _ _ _, (tableRow_stampsFit hnow ⟨ht0, hty, htw⟩ hrow :)⟩
    pinFits := (tableRow_pinFits hs.pinFits hrow :)
    bufferFits := (tableRow_bufferFits hs.bufferFits hrow :)
    cntFits := (tableRow_cntFits hs.phaseFacts hs.cntFits hrow :)
    resetCount := hrst
    armCount := harm
    dirCount := hdir
    installing := hinst
    running := hrun
    throttleBounded := hthr
    holdWaits := hwait
    armNoWait := hno
    drainBlocks := hblk
    busyIsFlight := rfl
    flightTrain := fun pos hpos => by
      obtain rfl : fl = some pos := hpos
      exact (hs.flightTrain_next hb hfl :)
    ackAwaited := fun ha => (nextCfgAck_eq_true ha).2 }

/-- Settles O51: `Inv.of_step`. -/
theorem everyStepKeepsTheInvariant : Obligations.EveryStepKeepsTheInvariant :=
  fun _ _ hs h => hs.of_step h

theorem reset_buffer_lt (i : Fin 17) :
    State.reset.pbuf[i] < 2 ^ State.reset.params.entryWidth := by
  show (Config.powerOnPbuf.map (· % 2 ^ Params.default.entryWidth))[i.val] < _
  rw [Vector.getElem_map]
  exact Nat.mod_lt _ (Nat.two_pow_pos _)

/-- Settles O50: the registers are 0 and the sequencer idle; the buffer and the tick count are free
values of their widths. -/
theorem resetStateMeetsTheInvariant : Obligations.ResetStateMeetsTheInvariant where
  legal := default_legal
  ticksFit := ⟨Nat.mod_lt _ (Nat.two_pow_pos _), Nat.two_pow_pos _, Nat.two_pow_pos _,
    Nat.two_pow_pos _⟩
  pinFits := ⟨Nat.two_pow_pos _, Nat.two_pow_pos _⟩
  bufferFits := reset_buffer_lt
  cntFits := Nat.zero_le _
  resetCount := nofun
  armCount := nofun
  dirCount := nofun
  installing := nofun
  running := fun h => absurd rfl h
  throttleBounded := nofun
  holdWaits := nofun
  armNoWait := nofun
  drainBlocks := nofun
  busyIsFlight := rfl
  flightTrain := nofun
  ackAwaited := nofun

/-! ## Consequences along runs -/

/-- Every state of a run from a lawful state is lawful. -/
theorem Inv.of_run {s u : State} {es : List Event} (hs : Inv s) (h : Run s es u) : Inv u := by
  induction h with
  | refl => exact hs
  | more hstep _ ih => exact ih (hs.of_step hstep)

/-- Settles O53: in a lawful state a train in flight keeps `tx_busy` up, and a busy step issues
nothing. -/
theorem trainInFlightIsNeverOverwritten : Obligations.TrainInFlightIsNeverOverwritten := by
  intro s u es hs hrun t hstep hfl
  have hnone : issuedFrame u = none := issuedFrame_of_busy ((hs.of_run hrun).busyIsFlight.trans hfl)
  obtain ⟨f, hf, -⟩ | ⟨-, hb⟩ := step_pbuf hstep
  · cases hnone.symm.trans hf
  · exact ⟨hb, congrArg Option.isSome hnone⟩

/-- A lawful block in `FAILED` runs no command (10 R21). -/
theorem Inv.idle_of_failed {s : State} (hs : Inv s) (h : s.lifecycle = .failed) :
    s.phase = .idle := by
  by_contra hi
  by_cases hc : s.phase = .cfgWait
  · cases h.symm.trans (hs.installing hc)
  · obtain hl | hl := hs.running hi hc <;> cases h.symm.trans hl

theorem runPhase_idle {s : State} (h : s.phase = .idle) : runPhase s = .next (hold s) := by
  simp [runPhase, h]

/-- An idle block in `FAILED` stays so, with or without a command on its port (60 R209). -/
theorem blockStep_of_failed {s : State} (hr : s.env.rst = false) (hp : s.phase = .idle)
    (hf : s.lifecycle = .failed) :
    ∃ u, blockStep s = .next u ∧ u.lifecycle = .failed ∧ u.phase = .idle := by
  cases hc : s.env.cmd with
  | none =>
    rw [blockStep_of_noCommand hr hc, runPhase_idle hp]
    exact ⟨_, rfl, hf, hp⟩
  | some w =>
    rw [blockStep_of_command hr hc, exec_rejected hp (if_pos hf)]
    exact ⟨_, rfl, hf, rfl⟩

/-- Settles O31: in `FAILED` a lawful block is idle, and the accept step rejects every command. -/
theorem failedIsStickyUntilReset : Obligations.FailedIsStickyUntilReset := by
  refine ⟨fun s t hs hstep hf hr => ?_, fun i s hp hf => ?_⟩
  · obtain ⟨u, hu, hul, hup⟩ := blockStep_of_failed hr (hs.idle_of_failed hf) hf
    obtain ⟨-, v, fl, hv, -, rfl⟩ := step_next hstep
    obtain rfl := Host.Outcome.next.inj (hu.symm.trans hv)
    exact ⟨hul, hup⟩
  · exact exec_rejected hp (if_pos hf)

/-- Settles O42: `tx_busy` is the train in flight, which a step starts or carries on. -/
theorem transmitterIsBusyUntilTheTrainEnds : Obligations.TransmitterIsBusyUntilTheTrainEnds := by
  intro s t hs h
  obtain ⟨-, u, fl, hb, hfl, rfl⟩ := step_next h
  refine ⟨fun htx => ?_, fun pos hpos => ?_, rfl⟩
  · have hn := hs.flight_of_notBusy htx
    obtain rfl := Except.ok.inj ((nextFlight_of_none u _ hn).symm.trans hfl)
    show u.env.flight.isSome = true ↔ _
    rw [blockStep_env hb, hn]
    cases (issuedFrame s).isSome <;> cases s.env.startErr <;> simp
  · obtain rfl := Except.ok.inj ((hs.nextFlight_of_some u _ hpos).symm.trans hfl)
    show (flightAfter _ _ _).isSome = true ↔ _
    unfold flightAfter
    split
    case isTrue hlt => exact iff_of_true rfl hlt
    case isFalse hlt => exact iff_of_false nofun hlt

/-- Settles O39: a reset step is `resetBlock` followed by the environment's move. -/
theorem resetStepLeavesTheTransmitterAlone : Obligations.ResetStepLeavesTheTransmitterAlone := by
  intro s hr
  have hnone := issuedFrame_of_reset hr
  have hreq : cfgReq s = false := by simp [cfgReq, hr]
  refine ⟨congrArg Option.isSome hnone, hreq, by simp [accepted, hr], fun t h => ?_,
    fun hs => hs.step_isNext⟩
  obtain ⟨-, u, fl, hrow, hfl, rfl⟩ := step_tableRow h
  obtain rfl := tableRow_of_reset hr hrow
  refine ⟨rfl, rfl, rfl, ?_, fun hn => ?_, fun hs pos hpos => ?_⟩
  · show nextTxConfig s = _
    rw [nextTxConfig, hreq]
    rfl
  · obtain rfl := Except.ok.inj ((nextFlight_of_none _ _ hn).symm.trans hfl)
    exact hn
  · obtain rfl := Except.ok.inj ((hs.nextFlight_of_some _ _ hpos).symm.trans hfl)
    show flightAfter _ _ _ = _
    rw [flightAfter, ← ite_not]
    simp only [not_lt]
    rfl

end Sys2Proof.Machine
end

section
/-! The rows of the table as equations: what `runPhase` answers in each phase (41 R133, R134, R139 to R146). -/

namespace Sys2Proof.Machine

section Rows
variable {s : State}

/-! ## Starts and waits -/

theorem issue_accepted (f : Frame) (rest : State → State) (hfl : s.env.flight = none)
    (he : s.env.startErr = false) :
    issue f rest s = .next (rest (startFlight (loadTrain f s))) := by
  simp [issue, hfl, he]

theorem issue_refused (f : Frame) (rest : State → State) (hfl : s.env.flight = none)
    (he : s.env.startErr = true) : issue f rest s = .next (abort .txErr (loadTrain f s)) := by
  simp [issue, hfl, he]

theorem awaitIdle_issue {f : Frame} {rest : State → State} (hb : s.env.txBusy = false)
    (hfl : s.env.flight = none) (he : s.env.startErr = false) :
    awaitIdle (issue f rest) s = .next (rest (startFlight (loadTrain f s))) :=
  (awaitIdle_of_idle _ hb).trans (issue_accepted f rest hfl he)

/-- A phase that waits on the transmitter is an `await_idle` (41 R133). -/
theorem runPhase_eq_awaitIdle (h : s.phase.waitsOnTransmitter = true) :
    ∃ progress, runPhase s = awaitIdle progress s := by
  cases hph : s.phase <;> simp only [runPhase, hph]
  case idle | cfgWait | holdYield | beepSleep => rw [hph] at h; cases h
  all_goals exact ⟨_, rfl⟩

theorem runPhase_timedOut (h : s.phase.waitsOnTransmitter = true) (hb : s.env.txBusy = true)
    (ht : timedOut s = true) : runPhase s = .next (abort .txErr s) := by
  obtain ⟨progress, hrun⟩ := runPhase_eq_awaitIdle h
  simp [hrun, awaitIdle, hb, ht]

theorem runPhase_busy (h : s.phase.waitsOnTransmitter = true) (hb : s.env.txBusy = true)
    (ht : timedOut s = false) : runPhase s = .next (hold s) := by
  obtain ⟨progress, hrun⟩ := runPhase_eq_awaitIdle h
  simp [hrun, awaitIdle, hb, ht]

theorem timedOut_of_limit {limit : Nat} (hl : s.params.txTimeout = some limit) :
    timedOut s = decide (limit ≤ elapsed s s.tw) := by
  rw [timedOut, hl]

theorem timedOut_eq_false (h : ∀ limit, s.params.txTimeout = some limit → elapsed s s.tw < limit) :
    timedOut s = false := by
  cases hl : s.params.txTimeout with
  | none => rw [timedOut, hl]
  | some limit =>
    rw [timedOut_of_limit hl]
    exact decide_eq_false (Nat.not_le.mpr (h limit hl))

/-! ## `INSTALL` -/

theorem runPhase_cfgOk (hph : s.phase = .cfgWait) (ha : s.env.cfgAck = true)
    (he : s.env.cfgErr = false) :
    runPhase s = .next (complete .ok { s with lifecycle := .installed }) := by
  simp [runPhase, hph, rowCfgWait, ha, he]

theorem runPhase_cfgFail (hph : s.phase = .cfgWait) (ha : s.env.cfgAck = true)
    (he : s.env.cfgErr = true) :
    runPhase s = .next (complete .configErr { s with lifecycle := .failed }) := by
  simp [runPhase, hph, rowCfgWait, ha, he]

theorem runPhase_cfgPending (hph : s.phase = .cfgWait) (ha : s.env.cfgAck = false) :
    runPhase s = .next (hold s) := by
  simp [runPhase, hph, rowCfgWait, ha]

/-! ## The hold window's gates -/

theorem windowOver_iff : windowOver s = true ↔ holdWindow s.params s.ctx ≤ elapsed s s.t0 :=
  decide_eq_true_iff

theorem windowOver_eq_false_iff :
    windowOver s = false ↔ elapsed s s.t0 < holdWindow s.params s.ctx :=
  decide_eq_false_iff_not.trans Nat.not_le

theorem runPhase_yielded (hph : s.phase = .holdYield)
    (hy : s.params.yieldTicks ≤ elapsed s s.ty) :
    runPhase s = .next { s with tw := s.env.now, phase := .holdIssue, rspValid := false } := by
  simp [runPhase, hph, rowHoldYield, yieldOver, hy]

theorem runPhase_yielding (hph : s.phase = .holdYield)
    (hy : elapsed s s.ty < s.params.yieldTicks) : runPhase s = .next (hold s) := by
  simp [runPhase, hph, rowHoldYield, yieldOver, hy]

theorem runPhase_slept (hph : s.phase = .beepSleep)
    (hy : s.params.beepSleepTicks ≤ elapsed s s.ty) : runPhase s = .next (complete .ok s) := by
  simp [runPhase, hph, rowBeepSleep, sleepOver, hy]

theorem runPhase_sleeping (hph : s.phase = .beepSleep)
    (hy : elapsed s s.ty < s.params.beepSleepTicks) : runPhase s = .next (hold s) := by
  simp [runPhase, hph, rowBeepSleep, sleepOver, hy]

/-! ## The rows with the transmitter idle -/

section Idle
variable (hb : s.env.txBusy = false)
include hb

theorem runPhase_rstNext (hph : s.phase = .rstDrain) (hm : moreResetFrames s = true) :
    runPhase s = .next { s with
      cnt := cntSucc s, tw := s.env.now, phase := .rstIssue, rspValid := false } := by
  simp [runPhase, hph, rowRstDrain, awaitIdle, hb, hm]

theorem runPhase_rstHold (hph : s.phase = .rstDrain) (hm : moreResetFrames s = false)
    (hw : argFlag s.arg = true) :
    runPhase s = .next (startHold .arm { s with cnt := cntSucc s }) := by
  simp [runPhase, hph, rowRstDrain, awaitIdle, hb, hm, hw]

theorem runPhase_rstArm (hph : s.phase = .rstDrain) (hm : moreResetFrames s = false)
    (hw : argFlag s.arg = false) :
    runPhase s = .next { s with
      cnt := cntSucc s, tw := s.env.now, phase := .armIssue, rspValid := false } := by
  simp [runPhase, hph, rowRstDrain, awaitIdle, hb, hm, hw]

theorem runPhase_holdExit (hph : s.phase = .holdIssue) (hw : windowOver s = true) :
    runPhase s = .next (exitHold s) := by
  simp [runPhase, hph, rowHoldIssue, awaitIdle, hb, hw]

theorem runPhase_holdArmed (hph : s.phase = .holdIssue) (hw : windowOver s = true)
    (hc : s.ctx = .arm) :
    runPhase s = .next (complete .ok { s with lifecycle := .armed }) := by
  rw [runPhase_holdExit hb hph hw, exitHold, hc]

theorem runPhase_holdReverse (hph : s.phase = .holdIssue) (hw : windowOver s = true)
    (hc : s.ctx = .rev) :
    runPhase s = .next { s with
      cnt := 0, tw := s.env.now, phase := .dirIssue, rspValid := false } := by
  rw [runPhase_holdExit hb hph hw, exitHold, hc]

theorem runPhase_flushed (hph : s.phase = .revFlush) :
    runPhase s = .next (startHold .rev s) := by
  simp [runPhase, hph, rowRevFlush, awaitIdle, hb]

theorem runPhase_dirNext (hph : s.phase = .dirDrain) (hm : moreDirFrames s = true) :
    runPhase s = .next { s with
      cnt := cntSucc s, tw := s.env.now, phase := .dirIssue, rspValid := false } := by
  simp [runPhase, hph, rowDirDrain, awaitIdle, hb, hm]

theorem runPhase_dirDone (hph : s.phase = .dirDrain) (hm : moreDirFrames s = false) :
    runPhase s = .next (complete .ok { s with cnt := cntSucc s, dirRev := argFlag s.arg }) := by
  simp [runPhase, hph, rowDirDrain, awaitIdle, hb, hm]

theorem runPhase_beepDrained (hph : s.phase = .beepDrain) :
    runPhase s = .next { s with ty := s.env.now, phase := .beepSleep, rspValid := false } := by
  simp [runPhase, hph, rowBeepDrain, awaitIdle, hb]

theorem runPhase_packetDrained (hph : s.phase = .pktDrain) :
    runPhase s = .next (complete .ok s) := by
  simp [runPhase, hph, rowPktDrain, awaitIdle, hb]

/-! ## The rows that issue, with the start accepted -/

section Accepted
variable (hfl : s.env.flight = none) (he : s.env.startErr = false)
include hfl he

theorem runPhase_rstSent (hph : s.phase = .rstIssue) :
    runPhase s = .next { startFlight (loadTrain resetFrame s) with
      tw := s.env.now, phase := .rstDrain, rspValid := false } := by
  simp only [runPhase, hph]
  exact awaitIdle_issue hb hfl he

theorem runPhase_armSent (hph : s.phase = .armIssue) :
    runPhase s = .next (complete .ok
      { startFlight (loadTrain (minThrottleFrame s.params) s) with lifecycle := .armed }) := by
  simp only [runPhase, hph]
  exact awaitIdle_issue hb hfl he

theorem runPhase_holdSent (hph : s.phase = .holdIssue) (hw : windowOver s = false) :
    runPhase s = .next { startFlight (loadTrain (minThrottleFrame s.params) s) with
      ty := s.env.now, phase := .holdYield, rspValid := false } := by
  simp only [runPhase, hph, rowHoldIssue, awaitIdle_of_idle _ hb, hw, Bool.false_eq_true, if_false]
  exact issue_accepted _ _ hfl he

theorem runPhase_dirSent (hph : s.phase = .dirIssue) :
    runPhase s = .next { startFlight (loadTrain (directionFrame s.params s.arg) s) with
      tw := s.env.now, phase := .dirDrain, rspValid := false } := by
  simp only [runPhase, hph]
  exact awaitIdle_issue hb hfl he

theorem runPhase_beepSent (hph : s.phase = .beepIssue) :
    runPhase s = .next { startFlight (loadTrain (beepFrame s.params) s) with
      tw := s.env.now, phase := .beepDrain, rspValid := false } := by
  simp only [runPhase, hph]
  exact awaitIdle_issue hb hfl he

theorem runPhase_throttleSent (hph : s.phase = .thrIssue) :
    runPhase s = .next (complete .ok (startFlight (loadTrain (throttleFrame s.arg) s))) := by
  simp only [runPhase, hph]
  exact awaitIdle_issue hb hfl he

/-- `SEND_PACKET` with `block = 1` goes on to its drain (41 R144). -/
theorem runPhase_packetSent (hph : s.phase = .pktIssue) (hk : argBlock s.arg = true) :
    runPhase s = .next { startFlight (loadTrain (packetFrame s.arg) s) with
      tw := s.env.now, phase := .pktDrain, rspValid := false } := by
  simp only [runPhase, hph]
  exact (awaitIdle_issue hb hfl he).trans (congrArg _ (if_pos hk))

/-- `SEND_PACKET` with `block = 0` completes at once (41 R144). -/
theorem runPhase_packetDone (hph : s.phase = .pktIssue) (hk : argBlock s.arg = false) :
    runPhase s = .next (complete .ok (startFlight (loadTrain (packetFrame s.arg) s))) := by
  simp only [runPhase, hph]
  exact (awaitIdle_issue hb hfl he).trans (congrArg _ (if_neg (by simp [hk])))

end Accepted
end Idle
end Rows

/-! ## The statements about the commands and their rows -/

/-- What 41 R131 row 6 asks of a command other than `INSTALL` and `SEND_THROTTLE`. -/
theorem rejection_eq_none_of_runs {p : Params} {l : Lifecycle} {i : Instr}
    (hl : l = .installed ∨ l = .armed) (hres : isReserved i = false)
    (hthr : isThrottleOutOfRange p i = false) (hins : isInstall i = false) :
    rejection p l i = none := by
  rw [rejection_eq_none, hres, hthr, hins]
  obtain rfl | rfl := hl <;> decide

/-- Settles O17: the start of `INSTALL` and the three rows of its wait. -/
theorem installConfiguresTheChannel : Obligations.InstallConfiguresTheChannel := by
  refine ⟨fun pin ch x s hp hl => exec_started hp ?_,
    fun width value => ⟨fitted_of_lt, fitted_lt width value⟩,
    fun s hph => ⟨runPhase_cfgOk hph, runPhase_cfgFail hph, runPhase_cfgPending hph⟩⟩
  rw [hl]
  rfl

/-- Settles O18: `INIT` is started by 41 R131 row 6. -/
theorem initStartsItsResetFrames : Obligations.InitStartsItsResetFrames :=
  fun _ _ _ hp hl => exec_started hp (rejection_eq_none_of_runs hl rfl rfl rfl)

theorem resetFrame_eq_zero : resetFrame = 0x0000 := by decide

theorem moreResetFrames_of_last {s : State} (h : s.cnt + 1 = s.params.resetFrames) :
    moreResetFrames s = false :=
  decide_eq_false (by omega)

theorem moreDirFrames_of_last {s : State} (h : s.cnt + 1 = s.params.dirRepeats) :
    moreDirFrames s = false :=
  decide_eq_false (by omega)

/-- Settles O19: one row lemma per clause. -/
theorem initRowsSendResetAndThrottleFrames : Obligations.InitRowsSendResetAndThrottleFrames := by
  refine fun s hb => ⟨fun hph hfl he => ?_,
    fun hph hc => runPhase_rstNext hb hph (moreResetFrames_iff.mpr hc),
    fun hph hc hw => runPhase_rstHold hb hph (moreResetFrames_of_last hc) hw,
    fun hph hc hw => runPhase_rstArm hb hph (moreResetFrames_of_last hc) hw,
    fun hph hfl he => runPhase_armSent hb hfl he hph⟩
  rw [← resetFrame_eq_zero]
  exact runPhase_rstSent hb hfl he hph

theorem holdWindow_eq (p : Params) (c : Ctx) :
    (match c with
      | .arm => p.armTicks
      | .rev => p.revHoldTicks) = holdWindow p c := by
  cases c <;> rfl

/-- Settles O20: one row lemma per clause. -/
theorem holdWindowRows : Obligations.HoldWindowRows := by
  intro s window
  have hwin : window = holdWindow s.params s.ctx := holdWindow_eq s.params s.ctx
  rw [hwin]
  exact ⟨fun hph hb hw hc => runPhase_holdArmed hb hph (windowOver_iff.mpr hw) hc,
    fun hph hb hw hc => runPhase_holdReverse hb hph (windowOver_iff.mpr hw) hc,
    fun hph hb hw hfl he =>
      runPhase_holdSent hb hfl he hph (windowOver_eq_false_iff.mpr hw),
    runPhase_yielded, runPhase_yielding⟩

/-- Settles O22: the start of `SEND_THROTTLE` and its row. -/
theorem sendThrottleSendsOneFrame : Obligations.SendThrottleSendsOneFrame := by
  refine ⟨fun v s hp hl hmin hmax => exec_started hp (rejection_eq_none_of_runs hl rfl ?_ rfl),
    fun s hph hb hfl he => runPhase_throttleSent hb hfl he hph⟩
  simp [isThrottleOutOfRange, throttleInRange, hmin, hmax]

/-- Settles O23: `SET_REVERSED` is started by 41 R131 row 6. -/
theorem setReversedStartsItsHandshake : Obligations.SetReversedStartsItsHandshake :=
  fun _ _ _ hp hl => exec_started hp (rejection_eq_none_of_runs hl rfl rfl rfl)

/-- Settles O24: one row lemma per clause. -/
theorem setReversedRowsSendDirectionFrames : Obligations.SetReversedRowsSendDirectionFrames :=
  fun _ hb => ⟨runPhase_flushed hb, fun hph hfl he => runPhase_dirSent hb hfl he hph,
    fun hph hc => runPhase_dirNext hb hph (moreDirFrames_iff.mpr hc),
    fun hph hc => runPhase_dirDone hb hph (moreDirFrames_of_last hc)⟩

/-- Settles O25: the start of `BEEP` and its four rows. -/
theorem beepSendsAndSleeps : Obligations.BeepSendsAndSleeps :=
  ⟨fun _ _ hp hl => exec_started hp (rejection_eq_none_of_runs hl rfl rfl rfl),
    fun _ => ⟨fun hph hb hfl he => runPhase_beepSent hb hfl he hph,
      fun hph hb => runPhase_beepDrained hb hph, runPhase_slept, runPhase_sleeping⟩⟩

/-- Settles O26: the start of `SEND_PACKET` and its three rows. -/
theorem sendPacketSendsItsPacket : Obligations.SendPacketSendsItsPacket :=
  ⟨fun _ _ _ _ _ hp hl => exec_started hp (rejection_eq_none_of_runs hl rfl rfl rfl),
    fun _ hb => ⟨fun hph hfl he hk => runPhase_packetSent hb hfl he hph hk,
      fun hph hfl he hk => runPhase_packetDone hb hfl he hph hk, runPhase_packetDrained hb⟩⟩

/-! ## Refused starts and timeouts -/

/-- Among the phases that issue, those of `INIT` and `SET_REVERSED`. -/
theorem ofInitOrReverse_of_issuePhase {ph : Phase} (h : ph ∈ issuePhases) :
    ph.ofInitOrReverse = true ↔
      ph = .rstIssue ∨ ph = .armIssue ∨ ph = .holdIssue ∨ ph = .dirIssue := by
  revert h
  cases ph <;> decide

/-- Among the phases that wait on the transmitter, those of the other commands. -/
theorem not_ofInitOrReverse_of_waits {ph : Phase} (h : ph.waitsOnTransmitter = true) :
    ¬ ph.ofInitOrReverse = true ↔
      ph = .thrIssue ∨ ph = .pktIssue ∨ ph = .pktDrain ∨ ph = .beepIssue ∨ ph = .beepDrain := by
  revert h
  cases ph <;> decide

theorem blockStep_refused {s : State} {f : Frame} (hf : issuedFrame s = some f)
    (hfl : s.env.flight = none) (he : s.env.startErr = true) :
    blockStep s = .next (abort .txErr (loadTrain f s)) := by
  obtain ⟨rest, -, hb⟩ := blockStep_of_issued hf
  rw [hb, issue_refused f rest hfl he]

/-- Settles O27: `blockStep_refused`, the abort's effect read off by phase. -/
theorem refusedStartAbortsTheCommand : Obligations.RefusedStartAbortsTheCommand := by
  intro s f hf hfl he
  have hph := ofInitOrReverse_of_issuePhase (issuedFrame_phase_and_packet hf).1
  rw [blockStep_refused hf hfl he, ← if_congr hph rfl rfl]
  rfl

/-- The state with another timeout. -/
def withTimeout (x : Option Nat) (s : State) : State :=
  { s with params := { s.params with txTimeout := x } }

section Timeout
variable (x : Option Nat) (s : State)

@[simp] theorem withTimeout_phase : (withTimeout x s).phase = s.phase := rfl
@[simp] theorem withTimeout_arg : (withTimeout x s).arg = s.arg := rfl
@[simp] theorem withTimeout_ctx : (withTimeout x s).ctx = s.ctx := rfl
@[simp] theorem withTimeout_env : (withTimeout x s).env = s.env := rfl
@[simp] theorem moreResetFrames_withTimeout :
    moreResetFrames (withTimeout x s) = moreResetFrames s := rfl
@[simp] theorem moreDirFrames_withTimeout :
    moreDirFrames (withTimeout x s) = moreDirFrames s := rfl
@[simp] theorem windowOver_withTimeout : windowOver (withTimeout x s) = windowOver s := rfl

theorem exitHold_withTimeout : exitHold (withTimeout x s) = withTimeout x (exitHold s) := by
  unfold exitHold
  rw [withTimeout_ctx]
  cases s.ctx <;> rfl

variable {x s}

/-- `issue` does not read the timeout. -/
theorem issue_withTimeout {f : Frame} {rest : State → State}
    (h : ∀ u, u.arg = s.arg → rest (withTimeout x u) = withTimeout x (rest u)) :
    issue f rest (withTimeout x s) = mapNext (withTimeout x) (issue f rest s) := by
  unfold issue
  rw [withTimeout_env]
  split
  · rfl
  · split
    · rfl
    · exact congrArg _ (h (startFlight (loadTrain f s)) rfl)

/-- An `await_idle` that finds the transmitter idle does not read the timeout (41 R133). -/
theorem awaitIdle_withTimeout {progress progress' : State → Result} (hb : s.env.txBusy = false)
    (h : progress' (withTimeout x s) = mapNext (withTimeout x) (progress s)) :
    awaitIdle progress' (withTimeout x s) = mapNext (withTimeout x) (awaitIdle progress s) := by
  rw [awaitIdle_of_idle progress hb, ← h]
  exact awaitIdle_of_idle progress' hb

theorem runPhase_withTimeout (h : s.phase.waitsOnTransmitter = true)
    (hb : s.env.txBusy = false) :
    runPhase (withTimeout x s) = mapNext (withTimeout x) (runPhase s) := by
  cases hph : s.phase <;> simp only [runPhase, withTimeout_phase, hph]
  case idle | cfgWait | holdYield | beepSleep => rw [hph] at h; cases h
  case rstIssue | armIssue | dirIssue | beepIssue | thrIssue =>
    exact awaitIdle_withTimeout hb (issue_withTimeout fun _ _ => rfl)
  case revFlush | beepDrain | pktDrain => exact awaitIdle_withTimeout hb rfl
  case rstDrain =>
    refine awaitIdle_withTimeout hb ?_
    rw [moreResetFrames_withTimeout, withTimeout_arg]
    split
    · rfl
    · split <;> rfl
  case dirDrain =>
    refine awaitIdle_withTimeout hb ?_
    rw [moreDirFrames_withTimeout, withTimeout_arg]
    split <;> rfl
  case holdIssue =>
    refine awaitIdle_withTimeout hb ?_
    rw [windowOver_withTimeout]
    split
    · exact congrArg _ (exitHold_withTimeout x s)
    · exact issue_withTimeout fun _ _ => rfl
  case pktIssue =>
    refine awaitIdle_withTimeout hb (issue_withTimeout fun u hu => ?_)
    rw [withTimeout_arg, hu]
    cases argBlock s.arg <;> rfl

end Timeout

/-- Settles O28: the abort's effect read off by phase, the wait, and `runPhase_withTimeout`. -/
theorem transmitterWaitTimesOutOrHolds : Obligations.TransmitterWaitTimesOutOrHolds := by
  refine fun s h => ⟨fun hb limit hl hle => ?_, fun hb hlt => ?_, fun hb x => ?_⟩
  · have ht : timedOut s = true := by rw [timedOut_of_limit hl, decide_eq_true hle]
    rw [runPhase_timedOut h hb ht, ← if_congr (not_ofInitOrReverse_of_waits h) rfl rfl, ite_not]
    rfl
  · exact runPhase_busy h hb (timedOut_eq_false hlt)
  · exact runPhase_withTimeout h hb

end Sys2Proof.Machine
end

section
/-! Acceptance, the hold window, the ports, the events, and the agents' contracts, each over a whole step (10 R33 to R37, 41 R130, R137, R149, 60 R211 to R213). -/

namespace Sys2Proof.Machine

/-! ## Acceptance -/

theorem accepted_of_command {s : State} {w : CmdWord} (hr : s.env.rst = false)
    (hp : s.phase = .idle) (hc : s.env.cmd = some w) : accepted s = some (decode w) := by
  simp [accepted, hr, hp, hc]

/-- A host that holds keeps a command that is not accepted on its port (10 R34). -/
theorem nextCmd_of_hold {s : State} {m : EnvMove} (hm : m.host = .hold)
    (ha : accepted s = none) : nextCmd s m = s.env.cmd := by
  rw [nextCmd, hm, ha]
  rfl

/-- Settles O15: acceptance tests the phase, and the running row ignores the port. -/
theorem commandsAreTakenOnlyInIdle : Obligations.CommandsAreTakenOnlyInIdle := by
  refine ⟨fun i s hp => exec_busy i hp,
    fun s hp => ⟨decide_eq_false hp, accepted_of_busy hp⟩, fun s t h hp hm => ?_,
    fun s hp hr hc => ?_, fun s w hp hr hc => ?_⟩
  · obtain ⟨-, u, fl, -, -, rfl⟩ := step_next h
    exact nextCmd_of_hold hm (accepted_of_busy hp)
  · exact (blockStep_of_noCommand hr hc).trans (runPhase_idle hp)
  · exact ⟨decide_eq_true hp, accepted_of_command hr hp hc, blockStep_of_command hr hc,
      fun t h => (exec_arg hp h).trans (decode_arg w)⟩

/-- Settles O46: the block's part is `exec` of the command on the port. -/
theorem stepRunsTheDecodedCommand : Obligations.StepRunsTheDecodedCommand := by
  intro s w hl hr hp hc
  rw [← blockStep_of_command hr hc]
  exact if_pos hl

theorem decodeTableWord_eq_some {nbits w : Nat} {i : Instr} (h : decodeTableWord nbits w = some i) :
    decode (BitVec.ofNat 19 (w % 2 ^ nbits)) = i := by
  unfold decodeTableWord decodeNat at h
  split at h
  · rename_i j hj
    split at hj
    · exact (Except.ok.inj hj).trans (Option.some.inj h)
    · cases hj
  · cases h

/-- Settles O47: the placed word stands on the port of an idle block, and O46 applies. -/
theorem placedWordIsTheNextCommand : Obligations.PlacedWordIsTheNextCommand := by
  intro s nbits w i hl h
  obtain rfl := decodeTableWord_eq_some h
  exact stepRunsTheDecodedCommand (s.withFetchWord nbits w) _ hl rfl rfl rfl

/-! ## The hold window -/

/-- `HOLD_YIELD` is left for `HOLD_ISSUE` only when the yield is over (41 R136). -/
theorem tableRow_yielded {s u : State} (hs : s.phase = .holdYield) (hu : u.phase = .holdIssue)
    (h : TableRow s u) : s.params.yieldTicks ≤ elapsed s s.ty := by
  cases h with
  | yielded _ _ hy => exact of_decide_eq_true hy
  | idle | wait => cases hs.symm.trans hu
  | rstHold _ hph | flushed _ hph => cases hs.symm.trans hph
  | _ => cases hu

/-- `HOLD_ISSUE` is left for `HOLD_YIELD` only by an issue in an open window (41 R137). -/
theorem tableRow_holdSent {s u : State} (hs : s.phase = .holdIssue) (hu : u.phase = .holdYield)
    (h : TableRow s u) :
    issuedFrame s = some (minThrottleFrame s.params) ∧ u.ty = s.env.now
    ∧ elapsed s s.t0 < holdWindow s.params s.ctx := by
  cases h with
  | holdSent f hf _ _ _ hw hmin => exact ⟨hmin ▸ hf, rfl, windowOver_eq_false_iff.mp hw⟩
  | idle | wait => cases hs.symm.trans hu
  | _ => cases hu

/-- Settles O21: the gate of the issue, and the two rows between `HOLD_ISSUE` and `HOLD_YIELD`. -/
theorem noHoldFrameAfterTheWindow : Obligations.NoHoldFrameAfterTheWindow := by
  refine ⟨fun s hph hw => issuedFrame_of_windowOver hph (windowOver_iff.mpr hw),
    fun s t h hs ht => ?_, fun s t h hs ht => ?_⟩
  · obtain ⟨u, e, hrow, rfl⟩ := step_row h
    exact tableRow_yielded hs (u := u) ht hrow
  · obtain ⟨u, e, hrow, rfl⟩ := step_row h
    exact (tableRow_holdSent hs (u := u) ht hrow :)

/-! ## The timebase and the configure port -/

/-- Below the range `now - t` is the advance, whether or not the count has wrapped (41 R132). -/
theorem elapsedTicks_add {p : Params} {t d : Nat} (ht : t < 2 ^ p.tickW) (hd : d < 2 ^ p.tickW) :
    elapsedTicks p ((t + d) % 2 ^ p.tickW) t = d := by
  unfold elapsedTicks
  generalize 2 ^ p.tickW = N at ht hd ⊢
  rw [Nat.mod_mod, Nat.mod_eq_of_lt ht]
  by_cases hwrap : t + d < N
  · have hsum : t + d + (N - t) = d + N := by omega
    rw [Nat.mod_eq_of_lt hwrap, hsum, Nat.add_mod_right, Nat.mod_eq_of_lt hd]
  · have hmod : (t + d) % N = t + d - N := by
      rw [Nat.mod_eq_sub_mod (Nat.not_lt.mp hwrap), Nat.mod_eq_of_lt (by omega)]
    have hsum : t + d - N + (N - t) = d := by omega
    rw [hmod, hsum, Nat.mod_eq_of_lt hd]

/-- Settles O40: `elapsedTicks_add`. -/
theorem elapsedCountsAcrossTheWrap : Obligations.ElapsedCountsAcrossTheWrap :=
  fun _ _ _ _ ht hd => ⟨elapsedTicks_add ht hd, by rw [elapsedTicks_add ht hd]⟩

/-- Settles O41: the timebase's move is its advance read modulo half the range. -/
theorem tickCountOnlyAdvances : Obligations.TickCountOnlyAdvances := by
  intro s t h
  obtain ⟨-, u, fl, -, -, rfl⟩ := step_next h
  exact ⟨_, Nat.mod_lt _ (Nat.two_pow_pos _), rfl⟩

theorem cfgReq_eq_true {s : State} : cfgReq s = true ↔ s.phase = .cfgWait ∧ s.env.rst = false := by
  simp [cfgReq, and_comm]

/-- An answer ends the wait for it (41 R139). -/
theorem cfgAck_eq_false_of_waiting {s u : State} (hs : cfgReq s = true) (hu : u.phase = .cfgWait)
    (hb : blockStep s = .next u) : s.env.cfgAck = false := by
  obtain ⟨hph, hr⟩ := cfgReq_eq_true.mp hs
  rw [blockStep_of_running hr (by rw [hph]; decide)] at hb
  refine Bool.eq_false_iff.mpr fun ha => ?_
  cases he : s.env.cfgErr
  · obtain rfl := Host.Outcome.next.inj ((runPhase_cfgOk hph ha he).symm.trans hb)
    cases hu
  · obtain rfl := Host.Outcome.next.inj ((runPhase_cfgFail hph ha he).symm.trans hb)
    cases hu

/-- Settles O43: the answer's conditions, and what a success records. -/
theorem configureAnswersOnlyARequest : Obligations.ConfigureAnswersOnlyARequest := by
  intro s t h
  obtain ⟨-, u, fl, hb, -, rfl⟩ := step_next h
  refine ⟨fun ha => ?_, fun hreq ha he => ?_⟩
  · obtain ⟨hs, hu, hm⟩ := nextCfgAck_eq_true ha
    exact ⟨hs, cfgReq_eq_true.mpr ⟨hu, hm⟩, cfgAck_eq_false_of_waiting hs hu hb⟩
  · show nextTxConfig s = _
    rw [nextTxConfig, hreq, ha, he]
    rfl

/-! ## The output ports -/

/-- `tx_start`: an idle transmitter, no reset, and an issuing phase whose window is open (10 R36). -/
theorem issuedFrame_isSome_iff {s : State} :
    (issuedFrame s).isSome = true ↔
      s.env.rst = false ∧ s.env.txBusy = false ∧ s.phase ∈ issuePhases
      ∧ (s.phase = .holdIssue → elapsed s s.t0 < holdWindow s.params s.ctx) := by
  constructor
  · intro h
    obtain ⟨f, hf⟩ := Option.isSome_iff_exists.mp h
    obtain ⟨hr, hb, -⟩ := issuedFrame_eq_some hf
    obtain ⟨hph, hw, -⟩ := issuedFrame_phase_and_packet hf
    exact ⟨hr, hb, hph, fun hh => windowOver_eq_false_iff.mp (hw hh)⟩
  · rintro ⟨hr, hb, hph, hw⟩
    rw [← windowOver_eq_false_iff] at hw
    cases hs : s.phase <;> simp only [issuedFrame, hr, hb, hs]
    case rstIssue | armIssue | dirIssue | beepIssue | thrIssue | pktIssue => rfl
    case holdIssue => rw [hw hs]; rfl
    all_goals rw [hs] at hph; exact absurd hph (by decide)

/-- Without a start a step leaves the buffer and the transmitter alone (10 R36). -/
theorem blockStep_of_not_issued {s u : State} (h : blockStep s = .next u)
    (hn : issuedFrame s = none) : u.pbuf = s.pbuf ∧ u.env.flight = s.env.flight := by
  constructor
  · obtain ⟨f, hf, -⟩ | ⟨-, hb⟩ := tableRow_pbuf (blockStep_tableRow h)
    · cases hn.symm.trans hf
    · exact hb
  · rw [blockStep_env h, hn]
    rfl

/-- Settles O44: `issuedFrame_isSome_iff` for `tx_start`; the other ports are fields of the state. -/
theorem outputPortsShowTheState : Obligations.OutputPortsShowTheState := by
  intro s
  refine ⟨decide_eq_true_iff, ?_, ?_, rfl, rfl, ?_, issuedFrame_isSome_iff, fun t h hn => ?_,
    cfgReq_eq_true, rfl, rfl, rfl, rfl, rfl, rfl, rfl, fun r hr => ?_, fun r hr => ?_⟩
  · simp [outputs]
  · show s.lifecycle.code = _
    cases s.lifecycle <;> rfl
  · show s.rspStatus.code = _
    cases s.rspStatus <;> rfl
  · exact blockStep_of_not_issued h (Option.not_isSome_iff_eq_none.mp (Bool.eq_false_iff.mp hn))
  · exact Vector.getElem?_eq_getElem hr
  · exact Vector.getElem?_eq_none hr

/-! ## The events -/

section Events
variable {s : State}

theorem accept_mem_stepEvents {op : BitVec 3} {a : Arg} :
    .accept op a ∈ stepEvents s ↔ ∃ i, accepted s = some i ∧ op = i.op ∧ a = i.arg := by
  cases ha : accepted s <;> cases hi : issuedFrame s <;> simp [stepEvents, ha, hi]

theorem issue_mem_stepEvents {f : Frame} {b : Bool} :
    .issue f b ∈ stepEvents s ↔ issuedFrame s = some f ∧ b = !s.env.startErr := by
  cases ha : accepted s <;> cases hi : issuedFrame s <;> simp [stepEvents, ha, hi, eq_comm (a := f)]

theorem configure_mem_stepEvents {p : Pin} {c : Channel} {r : Option Bool} :
    .configure p c r ∈ stepEvents s ↔
      cfgReq s = true ∧ p = s.cfgPin ∧ c = s.cfgChannel
      ∧ r = if s.env.cfgAck then some s.env.cfgErr else none := by
  cases ha : accepted s <;> cases hi : issuedFrame s <;> simp [stepEvents, ha, hi]

theorem respond_mem_stepEvents {st : Status} :
    .respond st ∈ stepEvents s ↔ s.rspValid = true ∧ st = s.rspStatus := by
  cases ha : accepted s <;> cases hi : issuedFrame s <;> simp [stepEvents, ha, hi]

end Events

/-- The command accepted in a step is that of the word on the port. -/
theorem exists_accepted_iff {s : State} {op : BitVec 3} {a : Arg} :
    (∃ i, accepted s = some i ∧ op = i.op ∧ a = i.arg) ↔
      s.env.rst = false ∧ s.phase = .idle
      ∧ ∃ w, s.env.cmd = some w ∧ op = w.extractLsb' 16 3 ∧ a = w.extractLsb' 0 16 := by
  constructor
  · rintro ⟨i, hi, rfl, rfl⟩
    obtain ⟨hr, hp, w, hw, rfl⟩ := accepted_eq_some hi
    exact ⟨hr, hp, w, hw, decode_op w, decode_arg w⟩
  · rintro ⟨hr, hp, w, hw, rfl, rfl⟩
    exact ⟨_, accepted_of_command hr hp hw, (decode_op w).symm, (decode_arg w).symm⟩

/-- Settles O45: the membership lemma of each event. -/
theorem stepEventsAreTheObservation : Obligations.StepEventsAreTheObservation := by
  refine fun s => ⟨fun op a => accept_mem_stepEvents.trans exists_accepted_iff,
    fun f b => issue_mem_stepEvents.trans ⟨fun ⟨hf, hb⟩ => ⟨?_, hf, hb⟩, fun ⟨_, hf, hb⟩ =>
      ⟨hf, hb⟩⟩, fun p c r => configure_mem_stepEvents, fun st => respond_mem_stepEvents⟩
  show (issuedFrame s).isSome = true
  rw [hf]
  rfl

end Sys2Proof.Machine
end

section
/-! Whole commands: the starts a running command still makes before it ends with OK, and what it leaves (41 R139 to R144, 60 R204). -/

namespace Sys2Proof.Machine

/-! ## The starts of one step -/

/-- The start made in a step, if any, with the transmitter's verdict. -/
def startsAt (s : State) : List (Frame × Bool) :=
  (issuedFrame s).toList.map fun f => (f, !s.env.startErr)

theorem startsAt_of_none {s : State} (h : issuedFrame s = none) : startsAt s = [] := by
  rw [startsAt, h]
  rfl

theorem startsAt_of_phase {s : State} {ph : Phase} (h : s.phase = ph) (hn : ph ∉ issuePhases) :
    startsAt s = [] :=
  startsAt_of_none (issuedFrame_of_phase h hn)

theorem startsAt_of_accepted {s : State} {f : Frame} (h : issuedFrame s = some f)
    (he : s.env.startErr = false) : startsAt s = [(f, true)] := by
  rw [startsAt, h, he]
  rfl

theorem startsAt_of_refused {s : State} {f : Frame} (h : issuedFrame s = some f)
    (he : s.env.startErr = true) : startsAt s = [(f, false)] := by
  rw [startsAt, h, he]
  rfl

theorem startsOf_append (es fs : List Event) :
    startsOf (es ++ fs) = startsOf es ++ startsOf fs :=
  List.filterMap_append

theorem startsOf_stepEvents (s : State) : startsOf (stepEvents s) = startsAt s := by
  unfold stepEvents startsAt
  rw [startsOf_append, startsOf_append, startsOf_append]
  cases s.rspValid <;> cases accepted s <;> cases cfgReq s <;> cases issuedFrame s <;> rfl

/-- A command that has ended takes no further step. -/
theorem CommandRun.of_idle {s t : State} {es : List Event} (h : CommandRun s es t)
    (hp : s.phase = .idle) : es = [] ∧ t = s := by
  cases h with
  | done => exact ⟨rfl, rfl⟩
  | more hne => exact absurd hp hne

/-! ## A refused start -/

theorem step_of_refused {s t : State} {f : Frame} (hf : issuedFrame s = some f)
    (he : s.env.startErr = true) (h : step s = .next t) : Ended .txErr t := by
  obtain ⟨-, u, fl, hb, -, rfl⟩ := step_next h
  obtain ⟨rest, -, hi⟩ := blockStep_of_issued hf
  obtain ⟨-, ⟨-, rfl⟩ | ⟨he', -⟩⟩ := issue_next (hi.symm.trans hb)
  · exact ⟨rfl, rfl, rfl⟩
  · cases he.symm.trans he'

/-- A refused start is the last one of its command, and ends it (60 R204). -/
theorem CommandRun.refused_last {s t : State} {es : List Event} (h : CommandRun s es t) {f : Frame}
    (hf : (f, false) ∈ startsOf es) :
    Ended .txErr t ∧ ∃ gs : List Frame, startsOf es = gs.map (fun g => (g, true)) ++ [(f, false)] := by
  induction h with
  | done => cases hf
  | @more s u t es _ hstep hrun ih =>
    rw [startsOf_append, startsOf_stepEvents] at hf ⊢
    cases hi : issuedFrame s with
    | none =>
      rw [startsAt_of_none hi, List.nil_append] at hf ⊢
      exact ih hf
    | some g =>
      cases he : s.env.startErr
      · rw [startsAt_of_accepted hi he] at hf ⊢
        obtain hg | hmem := List.mem_cons.mp hf
        · cases hg
        · obtain ⟨hend, gs, hgs⟩ := ih hmem
          exact ⟨hend, g :: gs, by rw [hgs]; rfl⟩
      · have hend := step_of_refused hi he hstep
        obtain ⟨rfl, rfl⟩ := hrun.of_idle hend.1
        rw [startsAt_of_refused hi he] at hf ⊢
        obtain hg | hmem := List.mem_cons.mp hf
        · cases hg
          exact ⟨hend, [], rfl⟩
        · cases hmem

/-- Settles O57: `CommandRun.refused_last`. -/
theorem refusedStartIsTheLastOfItsCommand : Obligations.RefusedStartIsTheLastOfItsCommand :=
  fun _ _ _ _ h _ hf => h.refused_last hf

/-! ## What a command that will end with OK still does -/

/-- `n` accepted starts of a frame. -/
def sends (n : Nat) (f : Frame) : List (Frame × Bool) :=
  List.replicate n (f, true)

theorem sends_succ (n : Nat) (f : Frame) : sends (n + 1) f = [(f, true)] ++ sends n f := rfl

/-- One more frame is sent while fewer than `total` are. -/
theorem sends_sub {k total : Nat} (h : k < total) (f : Frame) :
    sends (total - k) f = [(f, true)] ++ sends (total - (k + 1)) f := by
  rw [← sends_succ]
  congr 1
  omega

/-- `lifecycle` and `dir_rev` end as they are. -/
def Keeps (s t : State) : Prop :=
  t.lifecycle = s.lifecycle ∧ t.dirRev = s.dirRev

/-- `INIT` ends in `ARMED` (41 R140). -/
def Arms (s t : State) : Prop :=
  t.lifecycle = .armed ∧ t.dirRev = s.dirRev

/-- `SET_REVERSED` records the direction of its argument (41 R142). -/
def Reverses (s t : State) : Prop :=
  t.lifecycle = s.lifecycle ∧ t.dirRev = argFlag s.arg

/-- `INIT` with `k` reset frames sent: the other reset frames, then minimum throttle, once if
`wait = 0` (41 R140). -/
def InitSends (s : State) (k : Nat) (l : List (Frame × Bool)) : Prop :=
  ∃ n, l = sends (s.params.resetFrames - k) resetFrame ++ sends n (minThrottleFrame s.params)
    ∧ (argFlag s.arg = false → n = 1)

/-- `SET_REVERSED` from its hold window on: minimum throttle, then every direction frame (41 R142). -/
def ReverseSends (s : State) (l : List (Frame × Bool)) : Prop :=
  ∃ n, l = sends n (minThrottleFrame s.params)
    ++ sends s.params.dirRepeats (directionFrame s.params s.arg)

/-- The hold window's owner decides what follows it (41 R137). -/
def HoldRemaining (s t : State) (l : List (Frame × Bool)) : Prop :=
  match s.ctx with
  | .arm => (∃ n, l = sends n (minThrottleFrame s.params)) ∧ Arms s t
  | .rev => ReverseSends s l ∧ Reverses s t

/-- Any number of hold frames may stand before the rest. -/
theorem HoldRemaining.cons {s t : State} {l : List (Frame × Bool)} (h : HoldRemaining s t l) :
    HoldRemaining s t ((minThrottleFrame s.params, true) :: l) := by
  unfold HoldRemaining at h ⊢
  cases hc : s.ctx <;> rw [hc] at h
  · obtain ⟨⟨n, rfl⟩, harm⟩ := h
    exact ⟨⟨n + 1, rfl⟩, harm⟩
  · obtain ⟨⟨n, rfl⟩, hrev⟩ := h
    exact ⟨⟨n + 1, rfl⟩, hrev⟩

/-- From each phase: the starts still made, and what is left in the end. -/
def Remaining (s t : State) (l : List (Frame × Bool)) : Prop :=
  match s.phase with
  | .idle => l = [] ∧ Keeps s t ∧ t.cfgPin = s.cfgPin ∧ t.cfgChannel = s.cfgChannel
  | .cfgWait =>
    l = [] ∧ t.lifecycle = .installed ∧ t.dirRev = s.dirRev ∧ t.cfgPin = s.cfgPin
      ∧ t.cfgChannel = s.cfgChannel
  | .rstIssue => InitSends s s.cnt l ∧ Arms s t
  | .rstDrain => InitSends s (s.cnt + 1) l ∧ Arms s t
  | .armIssue => l = sends 1 (minThrottleFrame s.params) ∧ Arms s t
  | .holdIssue | .holdYield => HoldRemaining s t l
  | .revFlush => ReverseSends s l ∧ Reverses s t
  | .dirIssue =>
    l = sends (s.params.dirRepeats - s.cnt) (directionFrame s.params s.arg) ∧ Reverses s t
  | .dirDrain =>
    l = sends (s.params.dirRepeats - (s.cnt + 1)) (directionFrame s.params s.arg) ∧ Reverses s t
  | .beepIssue => l = sends 1 (beepFrame s.params) ∧ Keeps s t
  | .thrIssue => l = sends 1 (throttleFrame s.arg) ∧ Keeps s t
  | .pktIssue => l = sends 1 (packetFrame s.arg) ∧ Keeps s t
  | .beepDrain | .beepSleep | .pktDrain => l = [] ∧ Keeps s t

/-- A row carries what remains one step back, unless it ends the command otherwise than with OK. -/
theorem remaining_of_row {s u t : State} {e : Env} {l : List (Frame × Bool)} (hf : PhaseFacts s)
    (hne : s.phase ≠ .idle) (hend : u.phase = .idle → Ended .ok u) (h : TableRow s u)
    (hu : Remaining { u with env := e } t l) : Remaining s t (startsAt s ++ l) := by
  cases h with
  | reset =>
    obtain ⟨-, hv, -⟩ := hend rfl
    cases hv
  | timeout | refused | cfgFail =>
    obtain ⟨-, -, hst⟩ := hend rfl
    cases hst
  | idle _ hph => exact absurd hph hne
  | reject _ _ ha | startInstall _ _ _ ha | startInit _ _ ha | startThrottle _ ha
  | startReverse _ _ ha | startBeep _ ha | startPacket _ _ _ _ ha =>
    exact absurd (accepted_eq_some ha).2.1 hne
  | wait _ _ hw =>
    rw [startsAt_of_none (issuedFrame_of_waits hw)]
    exact hu
  | cfgOk _ hph =>
    obtain ⟨rfl, ⟨hl, hd⟩, hp, hc⟩ := hu
    rw [startsAt_of_phase hph (by decide)]
    simp only [Remaining, hph]
    exact ⟨rfl, hl, hd, hp, hc⟩
  | rstSent f hi _ he hph hfr =>
    obtain ⟨⟨n, rfl, hn⟩, harm⟩ := hu
    subst hfr
    rw [startsAt_of_accepted hi he]
    simp only [PhaseFacts, hph] at hf
    simp only [Remaining, hph]
    refine ⟨⟨n, ?_, hn⟩, harm⟩
    rw [sends_sub hf.2]
    rfl
  | rstNext _ hph _ hm =>
    obtain ⟨⟨n, rfl, hn⟩, harm⟩ := hu
    rw [startsAt_of_phase hph (by decide)]
    simp only [Remaining, hph]
    refine ⟨⟨n, ?_, hn⟩, harm⟩
    rw [← (cntSucc_of_rstDrain hf hph).2]
    rfl
  | rstHold _ hph _ hm hw =>
    obtain ⟨⟨n, rfl⟩, harm⟩ := hu
    have hlast := cntSucc_of_lastResetFrame hf hph hm
    rw [startsAt_of_phase hph (by decide)]
    simp only [Remaining, hph]
    refine ⟨⟨n, ?_, fun h => absurd (hw.symm.trans h) nofun⟩, harm⟩
    rw [← (cntSucc_of_rstDrain hf hph).2, hlast, Nat.sub_self]
    rfl
  | rstArm _ hph _ hm hw =>
    obtain ⟨rfl, harm⟩ := hu
    have hlast := cntSucc_of_lastResetFrame hf hph hm
    rw [startsAt_of_phase hph (by decide)]
    simp only [Remaining, hph]
    refine ⟨⟨1, ?_, fun _ => rfl⟩, harm⟩
    rw [← (cntSucc_of_rstDrain hf hph).2, hlast, Nat.sub_self]
    rfl
  | armSent f hi _ he hph hfr =>
    obtain ⟨rfl, ⟨hl, hd⟩, -⟩ := hu
    subst hfr
    rw [startsAt_of_accepted hi he]
    simp only [Remaining, hph]
    exact ⟨rfl, hl, hd⟩
  | holdArmed _ hph _ hw hc =>
    obtain ⟨rfl, ⟨hl, hd⟩, -⟩ := hu
    rw [startsAt_of_none (issuedFrame_of_windowOver hph hw)]
    simp only [Remaining, hph, HoldRemaining, hc]
    exact ⟨⟨0, rfl⟩, hl, hd⟩
  | holdReverse _ hph _ hw hc =>
    obtain ⟨rfl, hrev⟩ := hu
    rw [startsAt_of_none (issuedFrame_of_windowOver hph hw)]
    simp only [Remaining, hph, HoldRemaining, hc]
    exact ⟨⟨0, rfl⟩, hrev⟩
  | holdSent f hi _ he hph _ hfr =>
    subst hfr
    rw [startsAt_of_accepted hi he]
    simp only [Remaining, hph]
    exact HoldRemaining.cons (s := s) hu
  | yielded _ hph | flushed _ hph | beepDrained _ hph =>
    rw [startsAt_of_phase hph (by decide)]
    simp only [Remaining, hph]
    exact hu
  | dirSent f hi _ he hph hfr =>
    obtain ⟨rfl, hrev⟩ := hu
    subst hfr
    rw [startsAt_of_accepted hi he]
    simp only [PhaseFacts, hph] at hf
    simp only [Remaining, hph]
    exact ⟨(sends_sub hf.2 _).symm, hrev⟩
  | dirNext _ hph _ hm =>
    obtain ⟨rfl, hrev⟩ := hu
    rw [startsAt_of_phase hph (by decide)]
    simp only [Remaining, hph]
    refine ⟨?_, hrev⟩
    rw [← (cntSucc_of_dirDrain hf hph).2]
    rfl
  | dirDone _ hph _ hm =>
    obtain ⟨rfl, ⟨hl, hd⟩, -⟩ := hu
    rw [startsAt_of_phase hph (by decide)]
    simp only [Remaining, hph]
    refine ⟨?_, hl, hd⟩
    have hlast : s.params.dirRepeats - (s.cnt + 1) = 0 :=
      Nat.sub_eq_zero_of_le (Nat.not_lt.mp (of_decide_eq_false hm))
    rw [hlast]
    rfl
  | beepSent f hi _ he hph hfr | packetSent f hi _ he hph _ hfr =>
    obtain ⟨rfl, hk⟩ := hu
    subst hfr
    rw [startsAt_of_accepted hi he]
    simp only [Remaining, hph]
    exact ⟨rfl, hk⟩
  | beepDone _ hph | packetDrained _ hph =>
    obtain ⟨rfl, hk, -⟩ := hu
    rw [startsAt_of_phase hph (by decide)]
    simp only [Remaining, hph]
    exact ⟨rfl, hk⟩
  | throttleSent f hi _ he hph hfr | packetDone f hi _ he hph _ hfr =>
    obtain ⟨rfl, hk, -⟩ := hu
    subst hfr
    rw [startsAt_of_accepted hi he]
    simp only [Remaining, hph]
    exact ⟨rfl, hk⟩

theorem CommandRun.remaining {s t : State} {es : List Event} (h : CommandRun s es t)
    (hf : PhaseFacts s) (hok : Ended .ok t) : Remaining s t (startsOf es) := by
  induction h with
  | done hp =>
    unfold Remaining
    rw [hp]
    exact ⟨rfl, ⟨rfl, rfl⟩, rfl, rfl⟩
  | @more s u t es hne hstep hrun ih =>
    obtain ⟨hl, v, fl, hrow, -, rfl⟩ := step_tableRow hstep
    have hend (hp : v.phase = .idle) : Ended .ok v := by
      obtain ⟨-, rfl⟩ := hrun.of_idle hp
      exact hok
    rw [startsOf_append, startsOf_stepEvents]
    exact remaining_of_row hf hne hend hrow
      (ih (tableRow_phaseFacts hl hf hrow :) hok)

/-! ## The accept step of a command that starts -/

/-- A command that leaves `IDLE` in its accept step was started by 41 R131 row 6. -/
theorem step_started {i : Instr} {s s' : State} (ha : accepted s = some i)
    (h : step s = .next s') (hne : s'.phase ≠ .idle) :
    rejection s.params s.lifecycle i = none
    ∧ ∃ e, s' = { startOf i { s with arg := i.arg, rspValid := false } with env := e } := by
  obtain ⟨hr, hp, w, hw, rfl⟩ := accepted_eq_some ha
  obtain ⟨-, u, fl, hb, -, rfl⟩ := step_next h
  rw [blockStep_of_command hr hw] at hb
  obtain hrej | ⟨st, hrej⟩ := Option.eq_none_or_eq_some (rejection s.params s.lifecycle (decode w))
  · obtain rfl := Host.Outcome.next.inj ((exec_started hp hrej).symm.trans hb)
    exact ⟨hrej, _, rfl⟩
  · obtain rfl := Host.Outcome.next.inj ((exec_rejected hp hrej).symm.trans hb)
    exact absurd rfl hne

/-- What a started command that ends with OK does in all. -/
theorem remaining_of_accepted {i : Instr} {s s' t : State} {es : List Event}
    (ha : accepted s = some i) (h : step s = .next s') (hrun : CommandRun s' es t)
    (hok : Ended .ok t) : Remaining s' t (startsOf es) := by
  obtain ⟨hl, u, fl, hrow, -, rfl⟩ := step_tableRow h
  exact hrun.remaining
    (tableRow_phaseFacts hl (phaseFacts_of_idle (accepted_eq_some ha).2.1) hrow :) hok

/-- Settles O54: what remains in `RST_ISSUE` with no frame sent. -/
theorem initSendsAllResetFramesThenThrottle : Obligations.InitSendsAllResetFramesThenThrottle := by
  intro w x s s' t es ha h hne hrun hok
  have hrem := remaining_of_accepted ha h hrun hok
  obtain ⟨-, e, rfl⟩ := step_started ha h hne
  obtain ⟨⟨n, hes, hn⟩, hl, hd⟩ := hrem
  refine ⟨n, ?_, fun hw => hn ((argFlag_init w x).trans hw), hl, hd⟩
  rw [← resetFrame_eq_zero]
  exact hes

/-- Settles O55: what remains in `REV_FLUSH`. -/
theorem setReversedSendsAllDirectionFrames : Obligations.SetReversedSendsAllDirectionFrames := by
  intro r x s s' t es ha h hne hrun hok
  have hrem := remaining_of_accepted ha h hrun hok
  obtain ⟨-, e, rfl⟩ := step_started ha h hne
  obtain ⟨⟨n, hes⟩, hl, hd⟩ := hrem
  refine ⟨n, ?_, hd.trans (argFlag_setReversed r x), hl⟩
  rw [← argFlag_setReversed r x]
  exact hes

theorem packetFrame_sendPacket (q : Payload) (b k : Bool) (x : BitVec 3) :
    packetFrame (Instr.sendPacket q b k x).arg = encodeFrame q b := by
  rw [packetFrame, argPayload_sendPacket, argTelemetry_sendPacket]

/-- Settles O56: what remains in the first phase of each command. -/
theorem otherCommandsSendTheirOneFrame : Obligations.OtherCommandsSendTheirOneFrame := by
  intro i s s' t es ha h hne hrun hok
  have hrem := remaining_of_accepted ha h hrun hok
  obtain ⟨hrej, e, rfl⟩ := step_started ha h hne
  obtain ⟨-, hres, -⟩ := rejection_eq_none.mp hrej
  cases i with
  | install pin ch x =>
    obtain ⟨hes, hl, hd, hp, hc⟩ := hrem
    exact ⟨hes, hl, hd, hp, hc⟩
  | sendThrottle v =>
    obtain ⟨hes, hk⟩ := hrem
    exact ⟨hes, hk⟩
  | beep x =>
    obtain ⟨hes, hk⟩ := hrem
    exact ⟨hes, hk⟩
  | sendPacket q b k x =>
    obtain ⟨hes, hk⟩ := hrem
    exact ⟨hes.trans (congrArg (sends 1) (packetFrame_sendPacket q b k x)), hk⟩
  | init | setReversed => trivial
  | reservedOp0 | reservedOp7 => cases hres

end Sys2Proof.Machine
end

section
/-! That a command can complete: moves of a calm environment under which each command, once accepted, runs to its end with OK (60 R211 to R213; log 6). -/

namespace Sys2Proof.Machine

/-! ## Runs under decided moves -/

/-- Some moves lead every state of `σ` that has them decided to an end with OK in `G`. -/
def Completes (σ G : State → Prop) : Prop :=
  ∃ ms : List EnvMove, ∀ s, σ s → s.env.moves = ms →
    ∃ es t, CommandRun s es t ∧ Ended .ok t ∧ G t

theorem Completes.mono {σ τ G : State → Prop} (h : Completes τ G) (hσ : ∀ s, σ s → τ s) :
    Completes σ G := by
  obtain ⟨ms, hms⟩ := h
  exact ⟨ms, fun s hs => hms s (hσ s hs)⟩

theorem completes_of_ended {σ G : State → Prop} (h : ∀ s, σ s → Ended .ok s ∧ G s) :
    Completes σ G := by
  refine ⟨[], fun s hs _ => ?_⟩
  obtain ⟨hok, hG⟩ := h s hs
  exact ⟨[], s, .done hok.1, hok, hG⟩

theorem nextMove_of_cons {e : Env} {m : EnvMove} {ms : List EnvMove} (h : e.moves = m :: ms) :
    nextMove e = m := by
  rw [nextMove, h]

theorem step_moves {s t : State} (h : step s = .next t) : t.env.moves = s.env.moves.tail := by
  obtain ⟨-, u, fl, -, -, rfl⟩ := step_next h
  rfl

/-- One step with the move `m`, then the rest. -/
theorem Completes.of_step {σ τ G : State → Prop} (m : EnvMove) (hτ : Completes τ G)
    (h : ∀ s, σ s → nextMove s.env = m → s.phase ≠ .idle ∧ ∃ t, step s = .next t ∧ τ t) :
    Completes σ G := by
  obtain ⟨ms, hms⟩ := hτ
  refine ⟨m :: ms, fun s hs hmv => ?_⟩
  obtain ⟨hne, t, hstep, ht⟩ := h s hs (nextMove_of_cons hmv)
  have hrest : t.env.moves = ms := by rw [step_moves hstep, hmv, List.tail_cons]
  obtain ⟨es, u, hrun, hend⟩ := hms t ht hrest
  exact ⟨_, u, .more hne hstep hrun, hend⟩

/-! ## A calm environment -/

/-- A move without reset, in which the host holds and no start or request is refused. -/
def calm (advance emitted : Nat) (answer : Bool) : EnvMove where
  rst := false
  host := .hold
  tickAdvance := advance
  emitTicks := emitted
  startErr := false
  cfgAnswer := answer
  cfgErr := false

/-- The state after a step in which the block reached `u` and the environment moved. -/
def moved (s u : State) (m : EnvMove) (fl : Option Nat) : State :=
  { u with env := nextEnv s u m fl }

/-- A lawful block in a phase, with the transmitter idle and accepting. -/
structure Ready (p : Params) (ph : Phase) (s : State) : Prop where
  inv : Inv s
  params : s.params = p
  phase : s.phase = ph
  noReset : s.env.rst = false
  accepting : s.env.startErr = false
  noFlight : s.env.flight = none

/-- A lawful block in a phase, with a train in flight and time to wait for its end. -/
structure Draining (p : Params) (ph : Phase) (s : State) : Prop where
  inv : Inv s
  params : s.params = p
  phase : s.phase = ph
  noReset : s.env.rst = false
  inFlight : s.env.flight.isSome = true
  patient : timedOut s = false

theorem Ready.notBusy {p : Params} {ph : Phase} {s : State} (h : Ready p ph s) :
    s.env.txBusy = false := by
  rw [h.inv.busyIsFlight, h.noFlight]
  rfl

section Steps
variable {p : Params} {ph : Phase} {s u : State} {m : EnvMove}

theorem step_of_noFlight (hl : s.params.legal = true) (hfl : s.env.flight = none)
    (hm : nextMove s.env = m) (hb : blockStep s = .next u) :
    step s = .next (moved s u m u.env.flight) := by
  rw [step_of_parts hl hb (nextFlight_of_none u _ hfl), hm]
  rfl

/-- A step that starts no train leaves the transmitter ready. -/
theorem Inv.ready_next (hs : Inv s) (hfl : s.env.flight = none) (hb : blockStep s = .next u)
    (hu : u.env.flight = none) {a e : Nat} {c : Bool} (hm : nextMove s.env = calm a e c) :
    step s = .next (moved s u (calm a e c) none)
    ∧ Ready s.params u.phase (moved s u (calm a e c) none) := by
  have hstep := step_of_noFlight hs.legal hfl hm hb
  rw [hu] at hstep
  exact ⟨hstep, {
    inv := hs.of_step hstep
    params := (tableRow_params (blockStep_tableRow hb) :)
    phase := rfl
    noReset := rfl
    accepting := rfl
    noFlight := rfl }⟩

/-- The advance of the step is the time elapsed since its start. -/
theorem elapsed_moved (hs : Inv s) (hu : u.params = s.params) {a e : Nat} {c : Bool}
    (ha : a < 2 ^ (s.params.tickW - 1)) (fl : Option Nat) :
    elapsed (moved s u (calm a e c) fl) s.env.now = a := by
  have hle : 2 ^ (s.params.tickW - 1) ≤ 2 ^ s.params.tickW :=
    Nat.pow_le_pow_right (by decide) (Nat.sub_le _ _)
  have hnow : (moved s u (calm a e c) fl).env.now = (s.env.now + a) % 2 ^ s.params.tickW := by
    show (s.env.now + a % 2 ^ (s.params.tickW - 1)) % 2 ^ s.params.tickW = _
    rw [Nat.mod_eq_of_lt ha]
  have hp : (moved s u (calm a e c) fl).params = s.params := hu
  rw [elapsed, hnow, hp]
  exact elapsedTicks_add hs.ticksFit.1 (Nat.lt_of_lt_of_le ha hle)

/-- A step whose start is accepted leaves the train in flight and the wait for it just begun. -/
theorem Ready.draining_next (h : Ready p ph s) (hT : p.txTimeout ≠ some 0)
    (hb : blockStep s = .next u) (hu : u.env.flight = some 0) (htw : u.tw = s.env.now)
    (hm : nextMove s.env = calm 0 0 false) :
    step s = .next (moved s u (calm 0 0 false) (some 0))
    ∧ Draining p u.phase (moved s u (calm 0 0 false) (some 0)) := by
  have hstep := step_of_noFlight h.inv.legal h.noFlight hm hb
  rw [hu] at hstep
  have hp : u.params = s.params := tableRow_params (blockStep_tableRow hb)
  have hel : elapsed (moved s u (calm 0 0 false) (some 0)) u.tw = 0 := by
    rw [htw]
    exact elapsed_moved h.inv hp (Nat.two_pow_pos _) _
  refine ⟨hstep, {
    inv := h.inv.of_step hstep
    params := hp.trans h.params
    phase := rfl
    noReset := rfl
    inFlight := rfl
    patient := timedOut_eq_false fun limit hlim => ?_ }⟩
  have hne : limit ≠ 0 := by
    rintro rfl
    exact hT (by rw [← h.params, ← hp]; exact hlim)
  show elapsed _ u.tw < limit
  rw [hel]
  exact Nat.pos_of_ne_zero hne

theorem flightAfter_all (p : Params) (pos : Nat) : flightAfter p pos (trainTicks p) = none :=
  if_neg (by omega)

/-- A waiting step in which the whole train is emitted. -/
theorem Draining.ready_next (h : Draining p ph s) (hw : ph.waitsOnTransmitter = true)
    (hm : nextMove s.env = calm 0 (trainTicks p) false) :
    step s = .next (moved s (hold s) (calm 0 (trainTicks p) false) none)
    ∧ Ready p ph (moved s (hold s) (calm 0 (trainTicks p) false) none) := by
  obtain ⟨pos, hpos⟩ := Option.isSome_iff_exists.mp h.inFlight
  have hw' : s.phase.waitsOnTransmitter = true := h.phase ▸ hw
  have hb : blockStep s = .next (hold s) :=
    (blockStep_of_running h.noReset (phase_ne_idle_of_waitsOnTransmitter hw')).trans
      (runPhase_busy hw' (h.inv.busy_of_flight hpos) h.patient)
  have hfl : nextFlight s (hold s) (nextMove s.env) = .ok none := by
    rw [h.inv.nextFlight_of_some _ _ hpos, hm, h.params]
    exact congrArg _ (flightAfter_all p pos)
  have hstep := step_of_parts h.inv.legal hb hfl
  rw [hm] at hstep
  exact ⟨hstep, {
    inv := h.inv.of_step hstep
    params := h.params
    phase := h.phase
    noReset := rfl
    accepting := rfl
    noFlight := rfl }⟩

end Steps

/-! ## The three kinds of steps of a completing command -/

section Rules
variable {p : Params} {ph ph' : Phase} {Q Q' G : State → Prop}

/-- A row that ends the command with OK. -/
theorem completes_by_end (hne : ph ≠ .idle)
    (hrow : ∀ s, Ready p ph s → Q s →
      ∃ u, runPhase s = .next u ∧ Ended .ok u ∧ ∀ e, G { u with env := e }) :
    Completes (fun s => Ready p ph s ∧ Q s) G := by
  refine Completes.of_step (τ := fun t => Ended .ok t ∧ G t) (calm 0 0 false)
    (completes_of_ended fun _ h => h) fun s ⟨hs, hQ⟩ hm => ?_
  obtain ⟨u, hu, hend, hG⟩ := hrow s hs hQ
  have hne' : s.phase ≠ .idle := hs.phase ▸ hne
  have hb := (blockStep_of_running hs.noReset hne').trans hu
  exact ⟨hne', _, step_of_noFlight hs.inv.legal hs.noFlight hm hb, hend, hG _⟩

/-- A row that goes on without a start, while the tick count advances by `a`. -/
theorem completes_by_progress (hne : ph ≠ .idle) (a : Nat) (c : Bool)
    (hrow : ∀ s, Ready p ph s → Q s → ∃ u, runPhase s = .next u ∧ u.env = s.env ∧ u.phase = ph'
      ∧ Q' (moved s u (calm a 0 c) none))
    (h : Completes (fun s => Ready p ph' s ∧ Q' s) G) :
    Completes (fun s => Ready p ph s ∧ Q s) G := by
  refine h.of_step (calm a 0 c) fun s ⟨hs, hQ⟩ hm => ?_
  obtain ⟨u, hu, henv, rfl, hQ'⟩ := hrow s hs hQ
  have hne' : s.phase ≠ .idle := hs.phase ▸ hne
  have hb := (blockStep_of_running hs.noReset hne').trans hu
  have hfl : u.env.flight = none := by rw [henv, hs.noFlight]
  obtain ⟨hstep, hready⟩ := hs.inv.ready_next hs.noFlight hb hfl hm
  exact ⟨hne', _, hstep, hs.params ▸ hready, hQ'⟩

/-- A row that sends a frame and then waits for the end of its train. -/
theorem completes_by_send (hne : ph ≠ .idle) (hw : ph'.waitsOnTransmitter = true)
    (hT : p.txTimeout ≠ some 0) (hQ' : ∀ s e, Q' s → Q' { hold s with env := e })
    (hrow : ∀ s, Ready p ph s → Q s → ∃ u, runPhase s = .next u ∧ u.env.flight = some 0
      ∧ u.tw = s.env.now ∧ u.phase = ph' ∧ ∀ e, Q' { u with env := e })
    (h : Completes (fun s => Ready p ph' s ∧ Q' s) G) :
    Completes (fun s => Ready p ph s ∧ Q s) G := by
  have hdrain : Completes (fun s => Draining p ph' s ∧ Q' s) G := by
    refine h.of_step (calm 0 (trainTicks p) false) fun s ⟨hs, hQs⟩ hm => ?_
    obtain ⟨hstep, hready⟩ := hs.ready_next hw hm
    exact ⟨phase_ne_idle_of_waitsOnTransmitter (hs.phase ▸ hw), _, hstep, hready, hQ' _ _ hQs⟩
  refine hdrain.of_step (calm 0 0 false) fun s ⟨hs, hQ⟩ hm => ?_
  obtain ⟨u, hu, hfl, htw, rfl, hQu⟩ := hrow s hs hQ
  have hne' : s.phase ≠ .idle := hs.phase ▸ hne
  have hb := (blockStep_of_running hs.noReset hne').trans hu
  obtain ⟨hstep, hdr⟩ := hs.draining_next hT hb hfl htw hm
  exact ⟨hne', _, hstep, hdr, hQu _⟩

end Rules

/-! ## The accept step -/

theorem inv_withMoves {s : State} (hs : Inv s) (ms : List EnvMove) : Inv (withMoves ms s) :=
  { hs with legal := hs.legal }

/-- A command just started: its first-step actions on the accepted state. -/
def started (i : Instr) (s : State) : State :=
  startOf i { s with arg := i.arg, rspValid := false }

theorem started_env (i : Instr) (s : State) : (started i s).env = s.env := by
  cases i <;> rfl

theorem blockStep_started {i : Instr} {s : State} (ha : accepted s = some i)
    (hrej : rejection s.params s.lifecycle i = none) : blockStep s = .next (started i s) := by
  obtain ⟨hr, hp, w, hw, rfl⟩ := accepted_eq_some ha
  rw [blockStep_of_command hr hw, exec_started hp hrej]
  rfl

/-- A command that starts completes if its first phase does. -/
theorem can_complete {i : Instr} {s : State} {ph : Phase} {Q G : State → Prop} (hs : Inv s)
    (ha : accepted s = some i) (hfl : s.env.flight = none)
    (hrej : rejection s.params s.lifecycle i = none) (hne : ph ≠ .idle)
    (hph : ∀ v, (started i v).phase = ph)
    (hQ : ∀ ms, Q (moved (withMoves ms s) (started i (withMoves ms s)) (calm 0 0 false) none))
    (h : Completes (fun t => Ready s.params ph t ∧ Q t) G) :
    ∃ ms s' es t, step (withMoves ms s) = .next s' ∧ s'.phase ≠ .idle ∧ CommandRun s' es t
      ∧ Ended .ok t ∧ G t := by
  obtain ⟨ms, hms⟩ := h
  have hb : blockStep (withMoves (calm 0 0 false :: ms) s) = .next (started i (withMoves _ s)) :=
    blockStep_started (s := withMoves _ s) ha hrej
  have hflu : (started i (withMoves (calm 0 0 false :: ms) s)).env.flight = none := by
    rw [started_env]
    exact hfl
  obtain ⟨hstep, hready⟩ := (inv_withMoves hs (calm 0 0 false :: ms)).ready_next hfl hb hflu rfl
  rw [hph] at hready
  obtain ⟨es, t, hrun, hend⟩ := hms _ ⟨hready, hQ _⟩ rfl
  exact ⟨_, _, es, t, hstep, hready.phase ▸ hne, hrun, hend⟩

/-! ## Each command -/

section Commands
variable {p : Params} {G : State → Prop}

theorem completes_install (hG : ∀ s, G s) :
    Completes (fun s => Ready p .cfgWait s ∧ s.env.cfgAck = false) G := by
  refine completes_by_progress (ph' := .cfgWait)
    (Q' := fun s => s.env.cfgAck = true ∧ s.env.cfgErr = false) (by decide) 0 true
    (fun s hs ha => ⟨_, runPhase_cfgPending hs.phase ha, rfl, hs.phase, ?_, rfl⟩)
    (completes_by_end (by decide) fun s hs ⟨ha, he⟩ =>
      ⟨_, runPhase_cfgOk hs.phase ha he, ⟨rfl, rfl, rfl⟩, fun _ => hG _⟩)
  show nextCfgAck s (hold s) (calm 0 0 true) = true
  simp [nextCfgAck, calm, cfgReq, hs.phase, hs.noReset]

theorem completes_throttle (hG : ∀ s, G s) :
    Completes (fun s => Ready p .thrIssue s ∧ True) G :=
  completes_by_end (by decide) fun _ hs _ =>
    ⟨_, runPhase_throttleSent hs.notBusy hs.noFlight hs.accepting hs.phase, ⟨rfl, rfl, rfl⟩,
      fun _ => hG _⟩

theorem completes_packet (hT : p.txTimeout ≠ some 0) (hG : ∀ s, G s) (k : Bool) :
    Completes (fun s => Ready p .pktIssue s ∧ argBlock s.arg = k) G := by
  cases k
  · exact completes_by_end (by decide) fun _ hs hk =>
      ⟨_, runPhase_packetDone hs.notBusy hs.noFlight hs.accepting hs.phase hk, ⟨rfl, rfl, rfl⟩,
        fun _ => hG _⟩
  · exact completes_by_send (ph' := .pktDrain) (Q' := fun _ => True) (by decide) rfl hT
      (fun _ _ h => h)
      (fun _ hs hk => ⟨_, runPhase_packetSent hs.notBusy hs.noFlight hs.accepting hs.phase hk,
        rfl, rfl, rfl, fun _ => trivial⟩)
      (completes_by_end (by decide) fun _ hs _ =>
        ⟨_, runPhase_packetDrained hs.notBusy hs.phase, ⟨rfl, rfl, rfl⟩, fun _ => hG _⟩)

/-- What 00 R6 says of the windows: each fits half the tick range. -/
theorem legal_windows (h : p.legal = true) :
    p.armTicks < 2 ^ (p.tickW - 1) ∧ p.revHoldTicks < 2 ^ (p.tickW - 1)
    ∧ p.beepSleepTicks < 2 ^ (p.tickW - 1) := by
  obtain ⟨-, -, -, -, -, -, harm, hrev, hbeep, -⟩ := (legal_iff p).mp h
  exact ⟨harm, hrev, hbeep⟩

theorem completes_beep (hl : p.legal = true) (hT : p.txTimeout ≠ some 0) (hG : ∀ s, G s) :
    Completes (fun s => Ready p .beepIssue s ∧ True) G := by
  obtain ⟨-, -, hbeep⟩ := legal_windows hl
  refine completes_by_send (ph' := .beepDrain) (Q' := fun _ => True) (by decide) rfl hT
    (fun _ _ h => h)
    (fun _ hs _ => ⟨_, runPhase_beepSent hs.notBusy hs.noFlight hs.accepting hs.phase,
      rfl, rfl, rfl, fun _ => trivial⟩)
    (completes_by_progress (ph' := .beepSleep)
      (Q' := fun s => elapsed s s.ty = p.beepSleepTicks) (by decide) p.beepSleepTicks false
      (fun s hs _ => ⟨_, runPhase_beepDrained hs.notBusy hs.phase, rfl, rfl, ?_⟩)
      (completes_by_end (by decide) fun s hs hel =>
        ⟨_, runPhase_slept hs.phase (by rw [hs.params, hel]), ⟨rfl, rfl, rfl⟩, fun _ => hG _⟩))
  exact elapsed_moved hs.inv rfl (hs.params ▸ hbeep) none

/-! ### `INIT` -/

/-- With the window's whole length elapsed since its start, it is over. -/
theorem windowOver_moved {s : State} (hs : Inv s) {c : Ctx} {u : State}
    (hu : u.params = s.params) (ht : u.t0 = s.env.now) (hc : u.ctx = c)
    (hw : holdWindow s.params c < 2 ^ (s.params.tickW - 1)) :
    windowOver (moved s u (calm (holdWindow s.params c) 0 false) none) = true := by
  rw [windowOver_iff]
  show holdWindow u.params u.ctx ≤ elapsed _ u.t0
  rw [ht, elapsed_moved hs hu hw, hu, hc]

/-- After the last reset frame: the one minimum-throttle frame, or the hold window (41 R140). -/
theorem completes_afterResets (hl : p.legal = true) (hG : ∀ s, s.lifecycle = .armed → G s)
    (w : Bool) :
    Completes (fun s => Ready p .rstDrain s ∧ s.cnt + 1 = p.resetFrames ∧ argFlag s.arg = w) G := by
  obtain ⟨harm, -, -⟩ := legal_windows hl
  have hlast {s : State} (hs : Ready p .rstDrain s) (hc : s.cnt + 1 = p.resetFrames) :
      moreResetFrames s = false :=
    moreResetFrames_of_last (by rw [hs.params, hc])
  cases w
  · exact completes_by_progress (ph' := .armIssue) (Q' := fun _ => True) (by decide) 0 false
      (fun s hs ⟨hc, hw⟩ => ⟨_, runPhase_rstArm hs.notBusy hs.phase (hlast hs hc) hw, rfl, rfl,
        trivial⟩)
      (completes_by_end (by decide) fun s hs _ =>
        ⟨_, runPhase_armSent hs.notBusy hs.noFlight hs.accepting hs.phase, ⟨rfl, rfl, rfl⟩,
          fun _ => hG _ rfl⟩)
  · refine completes_by_progress (ph' := .holdIssue)
      (Q' := fun s => windowOver s = true ∧ s.ctx = .arm) (by decide) (holdWindow p .arm) false
      (fun s hs ⟨hc, hw⟩ => ⟨_, runPhase_rstHold hs.notBusy hs.phase (hlast hs hc) hw, rfl, rfl,
        ?_, rfl⟩)
      (completes_by_end (by decide) fun s hs ⟨hw, hc⟩ =>
        ⟨_, runPhase_holdArmed hs.notBusy hs.phase hw hc, ⟨rfl, rfl, rfl⟩, fun _ => hG _ rfl⟩)
    obtain rfl := hs.params
    exact windowOver_moved hs.inv rfl rfl rfl harm

/-- One reset frame and its drain. -/
theorem completes_resetFrame (hT : p.txTimeout ≠ some 0) {k : Nat} {w : Bool}
    (h : Completes (fun s => Ready p .rstDrain s ∧ s.cnt = k ∧ argFlag s.arg = w) G) :
    Completes (fun s => Ready p .rstIssue s ∧ s.cnt = k ∧ argFlag s.arg = w) G :=
  completes_by_send (by decide) rfl hT (fun _ _ hQ => hQ)
    (fun _ hs hQ => ⟨_, runPhase_rstSent hs.notBusy hs.noFlight hs.accepting hs.phase,
      rfl, rfl, rfl, fun _ => hQ⟩) h

/-- The loop over the reset frames, by induction on how many follow the next one. -/
theorem completes_resetFrames (hT : p.txTimeout ≠ some 0) {w : Bool}
    (hafter : Completes (fun s => Ready p .rstDrain s ∧ s.cnt + 1 = p.resetFrames
      ∧ argFlag s.arg = w) G) (n : Nat) :
    ∀ k, k + n + 1 = p.resetFrames →
      Completes (fun s => Ready p .rstIssue s ∧ s.cnt = k ∧ argFlag s.arg = w) G := by
  induction n with
  | zero =>
    intro k hk
    refine completes_resetFrame hT (hafter.mono fun s ⟨hs, hc, hw⟩ => ⟨hs, ?_, hw⟩)
    rw [hc, ← hk]
  | succ n ih =>
    intro k hk
    refine completes_resetFrame hT (completes_by_progress (by decide) 0 false
      (fun s hs ⟨hc, hw⟩ => ?_) (ih (k + 1) (by omega)))
    have hm : moreResetFrames s = true := moreResetFrames_iff.mpr (by rw [hs.params]; omega)
    refine ⟨_, runPhase_rstNext hs.notBusy hs.phase hm, rfl, rfl, ?_, hw⟩
    exact (cntSucc_of_rstDrain hs.inv.phaseFacts hs.phase).2.trans (congrArg (· + 1) hc)

/-! ### `SET_REVERSED` -/

/-- One direction frame and its drain. -/
theorem completes_directionFrame (hT : p.txTimeout ≠ some 0) {k : Nat} {r : Bool}
    (h : Completes (fun s => Ready p .dirDrain s ∧ s.cnt = k ∧ argFlag s.arg = r) G) :
    Completes (fun s => Ready p .dirIssue s ∧ s.cnt = k ∧ argFlag s.arg = r) G :=
  completes_by_send (by decide) rfl hT (fun _ _ hQ => hQ)
    (fun _ hs hQ => ⟨_, runPhase_dirSent hs.notBusy hs.noFlight hs.accepting hs.phase,
      rfl, rfl, rfl, fun _ => hQ⟩) h

/-- The loop over the direction frames, by induction on how many follow the next one. -/
theorem completes_directionFrames (hT : p.txTimeout ≠ some 0) {r : Bool}
    (hG : ∀ s, s.dirRev = r → G s) (n : Nat) :
    ∀ k, k + n + 1 = p.dirRepeats →
      Completes (fun s => Ready p .dirIssue s ∧ s.cnt = k ∧ argFlag s.arg = r) G := by
  induction n with
  | zero =>
    intro k hk
    refine completes_directionFrame hT (completes_by_end (by decide) fun s hs ⟨hc, hr⟩ => ?_)
    have hm : moreDirFrames s = false := moreDirFrames_of_last (by rw [hs.params, hc, ← hk])
    exact ⟨_, runPhase_dirDone hs.notBusy hs.phase hm, ⟨rfl, rfl, rfl⟩, fun _ => hG _ hr⟩
  | succ n ih =>
    intro k hk
    refine completes_directionFrame hT (completes_by_progress (by decide) 0 false
      (fun s hs ⟨hc, hr⟩ => ?_) (ih (k + 1) (by omega)))
    have hm : moreDirFrames s = true := moreDirFrames_iff.mpr (by rw [hs.params]; omega)
    refine ⟨_, runPhase_dirNext hs.notBusy hs.phase hm, rfl, rfl, ?_, hr⟩
    exact (cntSucc_of_dirDrain hs.inv.phaseFacts hs.phase).2.trans (congrArg (· + 1) hc)

theorem completes_reverse (hl : p.legal = true) (hT : p.txTimeout ≠ some 0) {r : Bool}
    (hG : ∀ s, s.dirRev = r → G s) :
    Completes (fun s => Ready p .revFlush s ∧ argFlag s.arg = r) G := by
  obtain ⟨-, hrev, -⟩ := legal_windows hl
  obtain ⟨-, hcount⟩ := legal_counts hl
  refine completes_by_progress (ph' := .holdIssue)
    (Q' := fun s => (windowOver s = true ∧ s.ctx = .rev) ∧ argFlag s.arg = r) (by decide)
    (holdWindow p .rev) false
    (fun s hs hr => ⟨_, runPhase_flushed hs.notBusy hs.phase, rfl, rfl, ⟨?_, rfl⟩, hr⟩)
    (completes_by_progress (by decide) 0 false
      (fun s hs ⟨⟨hw, hc⟩, hr⟩ => ⟨_, runPhase_holdReverse hs.notBusy hs.phase hw hc, rfl, rfl,
        rfl, hr⟩)
      (completes_directionFrames hT hG (p.dirRepeats - 1) 0 (by omega)))
  obtain rfl := hs.params
  exact windowOver_moved hs.inv rfl rfl rfl hrev

end Commands

/-- Settles O58: the first phase of each command completes. -/
theorem shortCommandsCanComplete : Obligations.ShortCommandsCanComplete := by
  intro i s hs ha hfl hT hrej hninit hnrev
  suffices h : ∃ ms s' es t, step (withMoves ms s) = .next s' ∧ s'.phase ≠ .idle
      ∧ CommandRun s' es t ∧ Ended .ok t ∧ True by
    obtain ⟨ms, s', es, t, hstep, hne, hrun, hok, -⟩ := h
    exact ⟨ms, s', es, t, hstep, hne, hrun, hok⟩
  have hG (s : State) : (fun _ => True) s := trivial
  cases i with
  | install pin ch x =>
    exact can_complete (ph := .cfgWait) hs ha hfl hrej (by decide) (fun _ => rfl)
      (fun _ => rfl) (completes_install hG)
  | sendThrottle v =>
    exact can_complete (ph := .thrIssue) hs ha hfl hrej (by decide) (fun _ => rfl)
      (fun _ => trivial) (completes_throttle hG)
  | beep x =>
    exact can_complete (ph := .beepIssue) hs ha hfl hrej (by decide) (fun _ => rfl)
      (fun _ => trivial) (completes_beep hs.legal hT hG)
  | sendPacket q b k x =>
    exact can_complete (ph := .pktIssue) hs ha hfl hrej (by decide) (fun _ => rfl)
      (fun _ => argBlock_sendPacket q b k x) (completes_packet hT hG k)
  | init w x => exact absurd rfl (hninit w x)
  | setReversed r x => exact absurd rfl (hnrev r x)
  | reservedOp0 | reservedOp7 =>
    obtain ⟨-, hres, -⟩ := rejection_eq_none.mp hrej
    cases hres

/-- Settles O59: the reset frames, then the end with or without the hold window. -/
theorem initCanArm : Obligations.InitCanArm := by
  intro w x s hs ha hfl hT hl
  obtain ⟨hcount, -⟩ := legal_counts hs.legal
  exact can_complete (ph := .rstIssue) hs ha hfl (rejection_eq_none_of_runs hl rfl rfl rfl)
    (by decide) (fun _ => rfl) (fun _ => ⟨rfl, argFlag_init w x⟩)
    (completes_resetFrames hT (completes_afterResets hs.legal (fun _ h => h) w)
      (s.params.resetFrames - 1) 0 (by omega))

/-- Settles O60: the flush, the hold window and the direction frames. -/
theorem setReversedCanComplete : Obligations.SetReversedCanComplete := by
  intro r x s hs ha hfl hT hl
  exact can_complete (ph := .revFlush) hs ha hfl (rejection_eq_none_of_runs hl rfl rfl rfl)
    (by decide) (fun _ => rfl) (fun _ => argFlag_setReversed r x)
    (completes_reverse hs.legal hT fun _ h => h)

end Sys2Proof.Machine
end
